-- ==== Sys2Proof/Word.lean ====
section
/-! DEFINITION. The two word types of the block: the 32-bit words of the port and the command word (R51, R70)
and the bytes of the field GF(256) (R100), with their plainest arithmetic. -/

namespace Sys2Proof

/-- A 32-bit word: a command word, RESULT or STATUS (R23, R24, R70). Bit 0 is the least significant bit (R8). -/
abbrev Word := BitVec 32

/-- A byte: an element of GF(256) and a codeword (R100, R131). Addition in the field is `^^^`. -/
abbrev Byte := BitVec 8

/-- `zext_32` of a byte (R8, R23). -/
def zextByte (b : Byte) : Word := b.zeroExtend 32

/-- `zext_32` of one bit: 1 or 0 (R8). -/
def zextBit (b : Bool) : Word := if b then 1 else 0

end Sys2Proof
end

