-- ==== Sys2Proof/Syntax.lean ====
section
/-! DEFINITION. The 21 commands of the block (R77), one constructor per row of spec/opcode_table.json, with their
operands as R72 to R76 give them: unsigned fields of the command word. -/

namespace Sys2Proof

/-- A command (the block's counterpart of an instruction). `classify` is the row CLASS: `class` is a word of Lean. -/
inductive Instr where
  /-- NOP (R200). -/
  | nop
  /-- TINIT: build EXP, then LOG (R104). -/
  | tinit
  /-- GFMUL a, b (R105). -/
  | gfmul (a b : Byte)
  /-- EXPRD b (R107). -/
  | exprd (b : Byte)
  /-- LOGRD b (R106). -/
  | logrd (b : Byte)
  /-- MSGCLR (R132). -/
  | msgclr
  /-- MSGPUT n, v (R133); the range of `n` and the width of `v` are operand checks of the command (R75). -/
  | msgput (n : BitVec 5) (v : BitVec 16)
  /-- CWRD b (R135). -/
  | cwrd (b : Byte)
  /-- RSGEN (R134). -/
  | rsgen
  /-- PARRD (R136). -/
  | parrd
  /-- CLASS a, b: the predicate isData at row `a`, column `b` (R162). -/
  | classify (a b : Byte)
  /-- MCLR (R163). -/
  | mclr
  /-- MFIND, phase 1 (R164). -/
  | mfind
  /-- MTIME, phase 2 (R165). -/
  | mtime
  /-- MFMT, phase 3 (R167). -/
  | mfmt
  /-- MPLACE, phase 4 (R171). -/
  | mplace
  /-- MMASK, phase 5 (R172). -/
  | mmask
  /-- MBUILD (R174). -/
  | mbuild
  /-- MRDROW b (R173). -/
  | mrdrow (b : Byte)
  /-- CTLWR b (R201). The operand is the byte `w[7:0]`; WellFormed asks that `b[7:1] = 0`. -/
  | ctlwr (b : Byte)
  /-- STCLR (R202). -/
  | stclr
  deriving DecidableEq, Repr

end Sys2Proof
end

