-- ==== Sys2Proof/WellFormed.lean ====
section
/-! DEFINITION. Which terms of `Instr` a command word can spell (R71 to R75, R79). Every operand but one is exactly as
wide as its field, so the type already bounds it; CTLWR's byte must have bits [7:1] zero. The ranges that a command
itself checks and reports as E_RANGE (MSGPUT, CWRD, CLASS, MRDROW) are NOT decode checks (R75) and stand in the
meanings. -/

namespace Sys2Proof

/-- CTLWR's operand: `w[7:1] = 0` (R79, R201). -/
def ctlwrOperandOk (b : Byte) : Bool := b >>> 1 == 0

/-- The commands that some word decodes to. -/
def Instr.wellFormed : Instr → Bool
  | .nop => true
  | .tinit => true
  | .gfmul _ _ => true
  | .exprd _ => true
  | .logrd _ => true
  | .msgclr => true
  | .msgput _ _ => true
  | .cwrd _ => true
  | .rsgen => true
  | .parrd => true
  | .classify _ _ => true
  | .mclr => true
  | .mfind => true
  | .mtime => true
  | .mfmt => true
  | .mplace => true
  | .mmask => true
  | .mbuild => true
  | .mrdrow _ => true
  | .ctlwr b => ctlwrOperandOk b
  | .stclr => true

end Sys2Proof
end

