-- ==== Sys2Proof/Decode.lean ====
section
/-! DEFINITION. The decoder (R78, R79), total on every 32-bit word and reading nothing but the word, and the encoder
(R81), written from the formats of R71 and the opcode map of R77. -/

namespace Sys2Proof

/-- Why a word spells no command. Each of them is the error E_ILLEGAL (R79, R230). -/
inductive DecodeError where
  /-- The opcode is none of the 21 of R77. -/
  | undefinedOpcode
  /-- A defined opcode with a nonzero reserved bit (R72 to R75). -/
  | reservedBits
  /-- CTLWR with `w[7:1] ≠ 0` (R79). -/
  | ctlwrOperand
  deriving DecidableEq, Repr

/-! The fields of a command word (R70 to R75). -/

/-- `op = w[31:24]`. -/
def fieldOp (w : Word) : Byte := w.extractLsb' 24 8

/-- `a = w[15:8]` of format B16. -/
def fieldA (w : Word) : Byte := w.extractLsb' 8 8

/-- `b = w[7:0]` of formats B8 and B16. -/
def fieldB (w : Word) : Byte := w.extractLsb' 0 8

/-- `n = w[20:16]` of format P. -/
def fieldN (w : Word) : BitVec 5 := w.extractLsb' 16 5

/-- `v = w[15:0]` of format P. -/
def fieldV (w : Word) : BitVec 16 := w.extractLsb' 0 16

/-- Format N: `w[23:0]` must be 0 (R72). -/
def formatN (w : Word) (i : Instr) : Except DecodeError Instr :=
  if w.extractLsb' 0 24 ≠ 0 then .error .reservedBits else .ok i

/-- Format B8: `w[23:8]` must be 0 (R73). -/
def formatB8 (w : Word) (k : Byte → Instr) : Except DecodeError Instr :=
  if w.extractLsb' 8 16 ≠ 0 then .error .reservedBits else .ok (k (fieldB w))

/-- Format B16: `w[23:16]` must be 0 (R74). -/
def formatB16 (w : Word) (k : Byte → Byte → Instr) : Except DecodeError Instr :=
  if w.extractLsb' 16 8 ≠ 0 then .error .reservedBits else .ok (k (fieldA w) (fieldB w))

/-- Format P: `w[23:21]` must be 0 (R75). -/
def formatP (w : Word) (k : BitVec 5 → BitVec 16 → Instr) : Except DecodeError Instr :=
  if w.extractLsb' 21 3 ≠ 0 then .error .reservedBits else .ok (k (fieldN w) (fieldV w))

/-- CTLWR: format B8, and then `w[7:1]` must be 0 (R78, R79). -/
def formatCtlwr (w : Word) : Except DecodeError Instr :=
  if w.extractLsb' 8 16 ≠ 0 then .error .reservedBits
  else if w.extractLsb' 1 7 ≠ 0 then .error .ctlwrOperand
  else .ok (.ctlwr (fieldB w))

/-- `decode(w)` of R78: the opcode picks the format, the format checks the reserved bits and hands over the operands. -/
def decode (w : Word) : Except DecodeError Instr :=
  match (fieldOp w).toNat with
  | 0x00 => formatN w .nop
  | 0x01 => formatN w .tinit
  | 0x02 => formatB16 w .gfmul
  | 0x03 => formatB8 w .exprd
  | 0x04 => formatB8 w .logrd
  | 0x10 => formatN w .msgclr
  | 0x11 => formatP w .msgput
  | 0x12 => formatB8 w .cwrd
  | 0x13 => formatN w .rsgen
  | 0x14 => formatN w .parrd
  | 0x20 => formatB16 w .classify
  | 0x21 => formatN w .mclr
  | 0x22 => formatN w .mfind
  | 0x23 => formatN w .mtime
  | 0x24 => formatN w .mfmt
  | 0x25 => formatN w .mplace
  | 0x26 => formatN w .mmask
  | 0x27 => formatN w .mbuild
  | 0x28 => formatB8 w .mrdrow
  | 0x30 => formatCtlwr w
  | 0x31 => formatN w .stclr
  | _ => .error .undefinedOpcode

/-! The encoder (R81). -/

/-- `encode_N(op) = {op[7:0], 0x000000}`. -/
def encodeN (op : Byte) : Word := op ++ (0 : BitVec 24)

/-- `encode_B8(op, b) = {op[7:0], 0x0000, b[7:0]}`. -/
def encodeB8 (op b : Byte) : Word := op ++ ((0 : BitVec 16) ++ b)

/-- `encode_B16(op, a, b) = {op[7:0], 0x00, a[7:0], b[7:0]}`. -/
def encodeB16 (op a b : Byte) : Word := op ++ ((0 : BitVec 8) ++ (a ++ b))

/-- `encode_P(op, n, v) = {op[7:0], 0b000, n[4:0], v[15:0]}`. -/
def encodeP (op : Byte) (n : BitVec 5) (v : BitVec 16) : Word := op ++ ((0 : BitVec 3) ++ (n ++ v))

/-- The command word of a command (R77, R81). -/
def encode : Instr → Word
  | .nop => encodeN 0x00
  | .tinit => encodeN 0x01
  | .gfmul a b => encodeB16 0x02 a b
  | .exprd b => encodeB8 0x03 b
  | .logrd b => encodeB8 0x04 b
  | .msgclr => encodeN 0x10
  | .msgput n v => encodeP 0x11 n v
  | .cwrd b => encodeB8 0x12 b
  | .rsgen => encodeN 0x13
  | .parrd => encodeN 0x14
  | .classify a b => encodeB16 0x20 a b
  | .mclr => encodeN 0x21
  | .mfind => encodeN 0x22
  | .mtime => encodeN 0x23
  | .mfmt => encodeN 0x24
  | .mplace => encodeN 0x25
  | .mmask => encodeN 0x26
  | .mbuild => encodeN 0x27
  | .mrdrow b => encodeB8 0x28 b
  | .ctlwr b => encodeB8 0x30 b
  | .stclr => encodeN 0x31

/-! The `match` and `mask` columns of R77. `(w & mask) == match` says that `w` spells the command of the row. -/

/-- The `match` value of a command's row. -/
def tableMatch : Instr → Word
  | .nop => 0x00000000
  | .tinit => 0x01000000
  | .gfmul _ _ => 0x02000000
  | .exprd _ => 0x03000000
  | .logrd _ => 0x04000000
  | .msgclr => 0x10000000
  | .msgput _ _ => 0x11000000
  | .cwrd _ => 0x12000000
  | .rsgen => 0x13000000
  | .parrd => 0x14000000
  | .classify _ _ => 0x20000000
  | .mclr => 0x21000000
  | .mfind => 0x22000000
  | .mtime => 0x23000000
  | .mfmt => 0x24000000
  | .mplace => 0x25000000
  | .mmask => 0x26000000
  | .mbuild => 0x27000000
  | .mrdrow _ => 0x28000000
  | .ctlwr _ => 0x30000000
  | .stclr => 0x31000000

/-- The `mask` value of a command's row. -/
def tableMask : Instr → Word
  | .gfmul _ _ => 0xFFFF0000
  | .classify _ _ => 0xFFFF0000
  | .exprd _ => 0xFFFFFF00
  | .logrd _ => 0xFFFFFF00
  | .cwrd _ => 0xFFFFFF00
  | .mrdrow _ => 0xFFFFFF00
  | .msgput _ _ => 0xFFE00000
  | .ctlwr _ => 0xFFFFFFFE
  | .nop => 0xFFFFFFFF
  | .tinit => 0xFFFFFFFF
  | .msgclr => 0xFFFFFFFF
  | .rsgen => 0xFFFFFFFF
  | .parrd => 0xFFFFFFFF
  | .mclr => 0xFFFFFFFF
  | .mfind => 0xFFFFFFFF
  | .mtime => 0xFFFFFFFF
  | .mfmt => 0xFFFFFFFF
  | .mplace => 0xFFFFFFFF
  | .mmask => 0xFFFFFFFF
  | .mbuild => 0xFFFFFFFF
  | .stclr => 0xFFFFFFFF

/-- The rows of R77 as one representative command each, for statements about the whole opcode map. -/
def tableRows : List Instr :=
  [.nop, .tinit, .gfmul 0 0, .exprd 0, .logrd 0, .msgclr, .msgput 0 0, .cwrd 0, .rsgen, .parrd, .classify 0 0,
   .mclr, .mfind, .mtime, .mfmt, .mplace, .mmask, .mbuild, .mrdrow 0, .ctlwr 0, .stclr]

/-- The command that the decoder reads from the word whose bits are `w` (bit 0 the least significant), every bit at
`nbits` and above being 0. A command is exactly one 32-bit word (R70), so nothing longer decodes. -/
def decodeTableWord (nbits w : Nat) : Option Instr :=
  if nbits ≤ 32 then
    match decode (BitVec.ofNat 32 (w % 2 ^ nbits)) with
    | .ok i => some i
    | .error _ => none
  else none

end Sys2Proof
end

