-- ==== Sys2Proof/Config.lean ====
section
/-! DEFINITION. The parameters of the block (R6): the fixed ones as constants, the two open ones that have a default
(FORMAT_WORD, FORMAT_MAP) by their defaults only, and PORT_BASE, which has none, as a constant without a body. -/

namespace Sys2Proof.Config

/-- `FIELD_POLY`, the 9-bit reduction polynomial x^8 + x^4 + x^3 + x^2 + 1 (R6, R100). -/
def fieldPoly : Nat := 0x11D

/-- `GEN`, the generator polynomial, high coefficient first: `[1, α^25, α^5]` (R6, R108, R138). -/
def gen : List Byte := [0x01, 0x03, 0x20]

/-- `MSG_MAX_BITS` (R6, decision D11). -/
def msgMaxBits : Nat := 32

/-- `DATA_CELLS` (R6, R161; 90_conflicts.md C1). -/
def dataCells : Nat := 36

/-- The number of placement bits that carry parity: `NPAR` = 2 codewords of 8 bits (R6, R169). -/
def parityBits : Nat := 16

/-- The DEFAULT of the parameter `FORMAT_WORD` (R6, R166, decision D16). `State` holds the parameter itself, so that
a statement about every state speaks of every format word. -/
def formatWordDefault : BitVec 15 := 0x4445

/-- The DEFAULT of the parameter `FORMAT_MAP` (R166, decision D17): bit `k` goes to `(8, k + 1)` for `k` in 0..7 and
to `(15 - k, 8)` for `k` in 8..14. `State` holds the parameter itself. -/
def formatMapDefault : Vector (Nat × Nat) 15 :=
  #v[(8, 1), (8, 2), (8, 3), (8, 4), (8, 5), (8, 6), (8, 7), (8, 8),
     (7, 8), (6, 8), (5, 8), (4, 8), (3, 8), (2, 8), (1, 8)]

/-- `PORT_BASE`, the platform parameter "with no default" (R52, R64, decision D3): where the 16-byte port window
sits. It has no body, so no proof can lean on a value of it (log entry 3). -/
opaque portBase : Nat

end Sys2Proof.Config
end

