-- ==== Sys2Proof/Machine/State.lean ====
section
/-! DEFINITION. The state of the block (R20: exactly these elements), the two open parameters that have a default, and
the host's side of the port: the program of port operations, the position in it (R21) and what the host has read
back (R51). Everything is plain data. -/

namespace Sys2Proof.Machine

/-- The outcome codes of R230. The reserved codes 11 to 15 "are never written" (R25): no constructor stands for them. -/
inductive ErrCode where
  /-- 0 E_OK. -/
  | ok
  /-- 1 E_ILLEGAL. -/
  | illegal
  /-- 2 E_RANGE. -/
  | range
  /-- 3 E_LOGZERO. -/
  | logzero
  /-- 4 E_NOTABLE. -/
  | notable
  /-- 5 E_NOMSG. -/
  | nomsg
  /-- 6 E_MSGOVF. -/
  | msgovf
  /-- 7 E_NOPAR. -/
  | nopar
  /-- 8 E_SEQ. -/
  | seq
  /-- 9 E_NOTREADY. -/
  | notready
  /-- 10 E_CAPACITY. -/
  | capacity
  deriving DecidableEq, Repr

/-- The values of PHASE (R30). Value 6 is "never written": no constructor stands for it. -/
inductive Phase where
  /-- 0 CLEARED. -/
  | cleared
  /-- 1 FINDER. -/
  | finder
  /-- 2 TIMING. -/
  | timing
  /-- 3 FORMAT. -/
  | format
  /-- 4 PLACED. -/
  | placed
  /-- 5 DONE. -/
  | done
  /-- 7 NONE. -/
  | noMatrix
  deriving DecidableEq, Repr

/-- What the host side does in one step. R51: a host step is exactly one of `issue(w)`, `readResult()` and
`readStatus()`; R52 binds the same port to a bus window; R261 adds the platform's reset between commands. -/
inductive HostOp where
  /-- `issue(w)` (R51). -/
  | issue (w : Word)
  /-- `readResult()` (R51). -/
  | readResult
  /-- `readStatus()` (R51). -/
  | readStatus
  /-- A bus write of `width` bytes at byte address `addr` (R52, R53). -/
  | busWrite (width addr : Nat) (data : Word)
  /-- A bus read of `width` bytes at byte address `addr` (R52, R53). -/
  | busRead (width addr : Nat)
  /-- The platform asserts the block's reset (R261). -/
  | reset
  deriving DecidableEq, Repr

/-- The Module Matrix `M`, row-major: `M[r][c]` is entry `c` of entry `r`, `true` is dark (R37). -/
abbrev Matrix := Vector (Vector Bool 11) 11

/-- The whole state. Names follow 10_state.md. -/
structure State where
  /-- `EXP[0..255]` (R33). -/
  exp : Vector Byte 256
  /-- `LOG[0..255]` (R34). -/
  log : Vector Byte 256
  /-- `TBL_VALID` (R28). -/
  tblValid : Bool
  /-- `MSG[0..31]` (R35). -/
  msg : Vector Bool 32
  /-- `MSGLEN`, 0 to 32 (R32). -/
  msglen : Nat
  /-- `PAR[0..1]` (R36). -/
  par : Vector Byte 2
  /-- `PAR_VALID` (R29). -/
  parValid : Bool
  /-- `M` (R37). -/
  matrix : Matrix
  /-- `PHASE` (R30). -/
  phase : Phase
  /-- `STRICT`, the one field of CTRL (R31). -/
  strict : Bool
  /-- `TRUNC` (R27). -/
  trunc : Bool
  /-- `RESULT` (R23). -/
  result : Word
  /-- `LASTERR` (R25). -/
  lasterr : ErrCode
  /-- `STICKY` (R26). -/
  sticky : Bool
  /-- The parameter `FORMAT_WORD` (R6, R166): fixed for a block, written by no step. -/
  formatWord : BitVec 15
  /-- The parameter `FORMAT_MAP` (R6, R166), bit position to (row, column): fixed for a block, written by no step. -/
  formatMap : Vector (Nat × Nat) 15
  /-- The host's program (R21), as port operations (R51, R52, R261). -/
  prog : List HostOp
  /-- The host's position in the program, 0 to its length (R21). -/
  pos : Nat
  /-- Every value a port read has returned to the host, oldest first (R51, R52): the host's, not the block's. -/
  reads : List Word
  deriving DecidableEq, Repr

/-- Why the machine stops. No command of the block can: "The block itself never hangs, is never stuck and never
refuses" (R231). -/
inductive Fault where
  /-- Raised by the host operations busRead and busWrite alone, for a first address outside the 16-byte port window:
  no part of this block is there (R52, R64), or, where a wide access reaches into the window from below, the spec does
  not say whether it is a port access (log entry 4). Safe: nothing is claimed of such an access. -/
  | outsidePort
  deriving DecidableEq, Repr

/-- What the model gives no step. -/
inductive Refusal where
  /-- Raised by an arm of `exec` whose instruction has no meaning yet (none at present). Safe. -/
  | notModelled (mnemonic : String)
  /-- Raised by busRead and busWrite for an access of another width than 32 bits: "A model refuses such an access: it
  gives it no step" (R53). Safe: it "errs toward unprovable". -/
  | notWordAccess
  /-- Raised by busRead and busWrite for an access that is not aligned to a multiple of 4 from PORT_BASE (R53). Safe. -/
  | unalignedAccess
  deriving DecidableEq, Repr

/-- The block right after reset (R260), with no program. EXP, LOG, PAR and M have no reset value in the spec ("a
draw"), and MSG is "not architectural": log entry 1 names the value 0 for them. The parameters stand at their defaults. -/
def State.reset : State where
  exp := Vector.replicate 256 0
  log := Vector.replicate 256 0
  tblValid := false
  msg := Vector.replicate 32 false
  msglen := 0
  par := Vector.replicate 2 0
  parValid := false
  matrix := Vector.replicate 11 (Vector.replicate 11 false)
  phase := .noMatrix
  strict := false
  trunc := false
  result := 0
  lasterr := .ok
  sticky := false
  formatWord := Config.formatWordDefault
  formatMap := Config.formatMapDefault
  prog := []
  pos := 0
  reads := []

end Sys2Proof.Machine
end

