-- ==== Sys2Proof/Machine/Ops.lean ====
section
/-! DEFINITION. The named operations over the state: array accessors, one update for each group of state elements that
a command writes together, and the two ways a command ends (R231, R25). The block has no byte-addressed memory
(R50), no traps and no trap return (R234, R235): `raise` is its whole error mechanism. -/

namespace Sys2Proof.Machine

/-! ## Arrays: an index outside an array reads the default and writes nothing. No command uses one (R50). -/

/-- Entry `i` of an array, `d` outside it. -/
def entry {α : Type} {n : Nat} (d : α) (xs : Vector α n) (i : Nat) : α := xs[i]?.getD d

/-- The array with entry `i` replaced. -/
def setEntry {α : Type} {n : Nat} (xs : Vector α n) (i : Nat) (v : α) : Vector α n := xs.setIfInBounds i v

/-- `EXP[i]`, `LOG[i]` or `PAR[i]` (R9). -/
def byteAt {n : Nat} (xs : Vector Byte n) (i : Nat) : Byte := entry 0 xs i

/-- `MSG[k]` (R9). -/
def bitAt {n : Nat} (xs : Vector Bool n) (k : Nat) : Bool := entry false xs k

/-- Row `r` of a matrix. -/
def matrixRow (m : Matrix) (r : Nat) : Vector Bool 11 := entry (Vector.replicate 11 false) m r

/-- `M[r][c]` (R9, R37). -/
def cell (m : Matrix) (r c : Nat) : Bool := bitAt (matrixRow m r) c

/-- `M[r][c] <- b`. -/
def setCell (m : Matrix) (r c : Nat) (b : Bool) : Matrix := setEntry m r (setEntry (matrixRow m r) c b)

/-- The matrix with every cell 0. -/
def clearedMatrix : Matrix := Vector.replicate 11 (Vector.replicate 11 false)

/-- `k n`, with `n` brought to a numeral first when it is evaluated; `eagerly_eq` says that it is `k n`. -/
def eagerly {α : Type} (n : Nat) (k : Nat → α) : α :=
  match n with
  | 0 => k 0
  | m + 1 => k (m + 1)

/-! ## Updates of the state -/

/-- The two writes of a failing command: `LASTERR <- x`, `STICKY <- 1` (R231). -/
def State.fail (e : ErrCode) (s : State) : State := { s with lasterr := e, sticky := true }

/-- The write of every completing command: `LASTERR <- E_OK` (R25). -/
def State.succeed (s : State) : State := { s with lasterr := .ok }

/-- `RESULT <- v` (R23). -/
def State.setResult (v : Word) (s : State) : State := { s with result := v }

/-- The writes of TINIT: EXP, LOG and `TBL_VALID <- 1` (R104). -/
def State.setTables (e l : Vector Byte 256) (s : State) : State := { s with exp := e, log := l, tblValid := true }

/-- `MSGLEN <- n` with `PAR_VALID <- 0` (R132). -/
def State.setMsglen (n : Nat) (s : State) : State := { s with msglen := n, parValid := false }

/-- MSG, MSGLEN and `PAR_VALID <- 0` (R133). -/
def State.setMsg (msg : Vector Bool 32) (n : Nat) (s : State) : State :=
  { s with msg := msg, msglen := n, parValid := false }

/-- PAR and `PAR_VALID <- 1` (R134). -/
def State.setPar (p : Vector Byte 2) (s : State) : State := { s with par := p, parValid := true }

/-- M and PHASE (R163 to R172). -/
def State.setMatrix (m : Matrix) (p : Phase) (s : State) : State := { s with matrix := m, phase := p }

/-- `TRUNC <- b` (R27). -/
def State.setTrunc (b : Bool) (s : State) : State := { s with trunc := b }

/-- `STRICT <- b` (R31). -/
def State.setStrict (b : Bool) (s : State) : State := { s with strict := b }

/-- `STICKY <- 0`, `TRUNC <- 0` (R202). -/
def State.clearSticky (s : State) : State := { s with sticky := false, trunc := false }

/-- The host's position moves on by one (R21). -/
def State.advance (s : State) : State := { s with pos := s.pos + 1 }

/-- A port read hands `v` to the host (R51). -/
def State.deliver (v : Word) (s : State) : State := { s with reads := s.reads ++ [v] }

/-- The block's reset event (R260, R261): every element of R20 to the value it has after reset. The parameters are
fixed for the block, and the host's program, position and readings are not the block's. -/
def State.resetBlock (s : State) : State :=
  { State.reset with
    formatWord := s.formatWord, formatMap := s.formatMap, prog := s.prog, pos := s.pos, reads := s.reads }

/-! ## How a command ends -/

/-- What one step answers. -/
abbrev Result := Host.Outcome State Fault Refusal

/-- `raise E_x` (R9, R231): the command ends at once, only LASTERR and STICKY change, and the block accepts the next
command normally. -/
def raise (e : ErrCode) (s : State) : Result := .next (s.fail e)

/-- A command whose pseudocode ends without `raise` completes with code E_OK (R9). -/
def complete (s : State) : Result := .next s.succeed

end Sys2Proof.Machine
end

