-- ==== Sys2Proof/Machine/Control.lean ====
section
/-! DEFINITION. The control commands NOP, CTLWR and STCLR (R200 to R202): the block's whole system family (R240). -/

namespace Sys2Proof.Machine

/-- NOP (R200): no effect but `LASTERR <- E_OK`. -/
def execNop (s : State) : Result := complete s

/-- CTLWR b (R201): `STRICT <- b[0]`; `b[7:1] = 0` is checked by decode. -/
def execCtlwr (b : Byte) (s : State) : Result := complete (s.setStrict (b.getLsbD 0))

/-- STCLR (R202). -/
def execStclr (s : State) : Result := complete s.clearSticky

end Sys2Proof.Machine
end

