-- ==== Sys2Proof/Machine/Operands.lean ====
section
/-! DEFINITION. The operand checks that read no state (R232 group 2) and the operand forms of the commands (R76): every
operand is an unsigned immediate field; indices and coordinates are its value as a natural number (R8). -/

namespace Sys2Proof.Machine

/-- MSGPUT's count check: `n == 0 or n > 16` is E_RANGE (R133). -/
def countOutOfRange (n : BitVec 5) : Bool := n.toNat == 0 || decide (n.toNat > 16)

/-- MSGPUT's value check: `(v >> n) != 0` is E_RANGE (R133). -/
def valueTooWide (n : BitVec 5) (v : BitVec 16) : Bool := v >>> n.toNat != 0

/-- MSGPUT's bit list: the low `n` bits of `v`, bit `n - 1` first (R133). -/
def putBits (n : BitVec 5) (v : BitVec 16) : List Bool :=
  (List.range n.toNat).map fun k => v.getLsbD (n.toNat - 1 - k)

/-- A row or a column above 10 (R162, R173). -/
def coordOutOfRange (b : Byte) : Bool := decide (b.toNat > 10)

end Sys2Proof.Machine
end

