-- ==== Sys2Proof/Machine/Field.lean ====
section
/-! DEFINITION. The field GF(256), its tables and the multiply primitive (R100 to R103), and the commands TINIT, GFMUL,
LOGRD and EXPRD (R104 to R107). -/

namespace Sys2Proof.Machine

/-- The doubling step (R101): shift, and reduce by FIELD_POLY when the 9-bit value exceeds 255. -/
def xtime (v : Byte) : Byte :=
  let t := 2 * v.toNat
  BitVec.ofNat 8 (if t > 255 then t ^^^ Config.fieldPoly else t)

/-- `k` entries of the exp table from the entry `v` on, each the double of the one before (R101). -/
def doublings : Nat → Nat → List Byte
  | 0, _ => []
  | k + 1, v => BitVec.ofNat 8 v :: eagerly (xtime (BitVec.ofNat 8 v)).toNat (doublings k)

/-- The table whose entry `i` is entry `i` of a list (0 where the list is shorter; both uses give 256 entries). -/
def tableOf (xs : List Byte) : Vector Byte 256 :=
  ⟨(xs.take 256 ++ List.replicate (256 - xs.length) 0).toArray, by simp; omega⟩

/-- `buildExp()` of R101: `EXP[0] <- 0x01`, then `EXP[i] <- xtime(EXP[i-1])`; all 256 entries are written. -/
def buildExp : Vector Byte 256 := tableOf (doublings 256 1)

/-- The last index at which `v` stands in a list. -/
def lastIndexOf (v : Byte) : List Byte → Option Nat
  | [] => none
  | e :: es =>
    match lastIndexOf v es with
    | some j => some (j + 1)
    | none => if e = v then some 0 else none

/-- `buildLog()` of R102: for i in 0..254, `LOG[EXP[i]] <- i`. Entry `v` is the last such `i` with `EXP[i] = v`; where
there is none (`LOG[0]`) the old content `l` stays. `buildLog_eq_loop` in Laws proves it equal to the loop. -/
def buildLog (e l : Vector Byte 256) : Vector Byte 256 :=
  tableOf <| (List.range 256).map fun v =>
    match lastIndexOf (BitVec.ofNat 8 v) (e.toList.take 255) with
    | some i => BitVec.ofNat 8 i
    | none => byteAt l v

/-- `gmul(a, b)` over the tables `e` = EXP and `l` = LOG (R103). -/
def gmul (e l : Vector Byte 256) (a b : Byte) : Byte :=
  if a = 0 ∨ b = 0 then 0
  else byteAt e (((byteAt l a.toNat).toNat + (byteAt l b.toNat).toNat) % 255)

/-- TINIT (R104): a no-op that completes once the tables are valid. -/
def execTinit (s : State) : Result :=
  if s.tblValid then complete s
  else complete (s.setTables buildExp (buildLog buildExp s.log))

/-- GFMUL a, b (R105). -/
def execGfmul (a b : Byte) (s : State) : Result :=
  if !s.tblValid then raise .notable s
  else complete (s.setResult (zextByte (gmul s.exp s.log a b)))

/-- LOGRD b (R106): E_LOGZERO is checked before E_NOTABLE. -/
def execLogrd (b : Byte) (s : State) : Result :=
  if b = 0 then raise .logzero s
  else if !s.tblValid then raise .notable s
  else complete (s.setResult (zextByte (byteAt s.log b.toNat)))

/-- EXPRD b (R107). -/
def execExprd (b : Byte) (s : State) : Result :=
  if !s.tblValid then raise .notable s
  else complete (s.setResult (zextByte (byteAt s.exp b.toNat)))

end Sys2Proof.Machine
end

