-- ==== Sys2Proof/Machine/Flags.lean ====
section
/-! DEFINITION. The codes in STATUS (R24, R25, R30, R230), the STATUS word, and the capacity computation behind TRUNC and
E_CAPACITY (R170). The block has no arithmetic condition codes (R41). -/

namespace Sys2Proof.Machine

/-- The numeric codes of R230. -/
def ErrCode.bits : ErrCode → BitVec 4
  | .ok => 0
  | .illegal => 1
  | .range => 2
  | .logzero => 3
  | .notable => 4
  | .nomsg => 5
  | .msgovf => 6
  | .nopar => 7
  | .seq => 8
  | .notready => 9
  | .capacity => 10

/-- The numeric codes of R30. -/
def Phase.bits : Phase → BitVec 3
  | .cleared => 0
  | .finder => 1
  | .timing => 2
  | .format => 3
  | .placed => 4
  | .done => 5
  | .noMatrix => 7

/-- `STATUS = zext_32({MSGLEN[5:0], 0b0, PHASE[2:0], 0b0, STRICT, PAR_VALID, TBL_VALID, 0b00, TRUNC, STICKY,
LASTERR[3:0]})` (R24). -/
def statusWord (s : State) : Word :=
  (BitVec.ofNat 6 s.msglen ++ (0 : BitVec 1) ++ s.phase.bits ++ (0 : BitVec 1) ++ BitVec.ofBool s.strict
    ++ BitVec.ofBool s.parValid ++ BitVec.ofBool s.tblValid ++ (0 : BitVec 2) ++ BitVec.ofBool s.trunc
    ++ BitVec.ofBool s.sticky ++ s.lasterr.bits).zeroExtend 32

/-- `Ltotal = MSGLEN + 16` (R169). -/
def placementTotal (s : State) : Nat := s.msglen + Config.parityBits

/-- `placed = min(Ltotal, 36)` (R170). -/
def placedCount (s : State) : Nat := min (placementTotal s) Config.dataCells

/-- `dropped = Ltotal - placed` (R170). -/
def droppedCount (s : State) : Nat := placementTotal s - placedCount s

/-- `capacityFails = (STRICT == 1 and Ltotal > 36)` (R170). -/
def capacityFails (s : State) : Bool := s.strict && decide (placementTotal s > Config.dataCells)

/-- `zext_32({dropped[15:0], placed[15:0]})` (R171). -/
def placementReport (s : State) : Word := BitVec.ofNat 16 (droppedCount s) ++ BitVec.ofNat 16 (placedCount s)

end Sys2Proof.Machine
end

