-- ==== Sys2Proof/Machine/Matrix.lean ====
section
/-! DEFINITION. The data-region predicate and the matrix constructor (R160, R161, R166, R168 to R170), and the commands
CLASS, MCLR, MFIND, MTIME, MFMT, MPLACE, MMASK, MRDROW and MBUILD (R162 to R174). -/

namespace Sys2Proof.Machine

/-! ## The predicate and the cell lists -/

/-- `isData(r, c)` of R161. -/
def isData (r c : Nat) : Bool :=
  if r ≤ 6 ∧ c ≤ 6 then false
  else if (r = 7 ∧ c ≤ 7) ∨ (c = 7 ∧ r ≤ 7) then false
  else if r = 0 ∨ c = 0 then false
  else if (r = 8 ∧ 1 ≤ c ∧ c ≤ 8) ∨ (c = 8 ∧ 1 ≤ r ∧ r ≤ 7) then false
  else true

/-- `for r in 0..n-1, c in 0..n-1`, row by row. -/
def square (n : Nat) : List (Nat × Nat) :=
  (List.range n).flatMap fun r => (List.range n).map fun c => (r, c)

/-- The dark cells of the finder block (R164). -/
def finderDark (r c : Nat) : Bool :=
  decide (r = 0 ∨ r = 6 ∨ c = 0 ∨ c = 6 ∨ (2 ≤ r ∧ r ≤ 4 ∧ 2 ≤ c ∧ c ≤ 4))

/-- `ORDER` of R168: column pairs from 10 down in steps of 2, rows 10 down to 0 in EVERY pair (90_conflicts.md C2), the
right column of a pair first, the column -1 skipped (decision D15). -/
def order : List (Nat × Nat) :=
  [10, 8, 6, 4, 2, 0].flatMap fun col =>
    (List.range 11).reverse.flatMap fun row =>
      ((row, col) :: (if col ≥ 1 then [(row, col - 1)] else [])).filter fun p => isData p.1 p.2

/-- The 15 format cells of R161 and R166: row 8 columns 1..8 and column 8 rows 1..7. -/
def isFormatCell (r c : Nat) : Bool := decide ((r = 8 ∧ 1 ≤ c ∧ c ≤ 8) ∨ (c = 8 ∧ 1 ≤ r ∧ r ≤ 7))

/-- `f[k] = FORMAT_WORD[14 - k]` (R166). -/
def formatBit (w : BitVec 15) (k : Nat) : Bool := w.getLsbD (14 - k)

/-- The bits of a byte, most significant first (R169). -/
def byteBits (b : Byte) : List Bool := (List.range 8).map fun t => b.getLsbD (7 - t)

/-- The placement sequence `S` (R169): the message bits without the packing fill, then PAR[0] and PAR[1], each most
significant bit first. -/
def placementBits (s : State) : List Bool :=
  (List.range s.msglen).map (bitAt s.msg) ++ byteBits (byteAt s.par 0) ++ byteBits (byteAt s.par 1)

/-! ## What the phases do to the matrix -/

/-- Phase 1 (R164). -/
def drawFinder (m : Matrix) : Matrix :=
  (square 7).foldl (fun m p => if finderDark p.1 p.2 then setCell m p.1 p.2 true else m) m

/-- Phase 2 (R165): indices 7 to 10 of row 0 and column 0, dark at even indices. -/
def drawTiming (m : Matrix) : Matrix :=
  [7, 8, 9, 10].foldl (fun m i => setCell (setCell m 0 i (i % 2 == 0)) i 0 (i % 2 == 0)) m

/-- Phase 3 (R167), with the block's FORMAT_WORD and FORMAT_MAP. -/
def drawFormat (w : BitVec 15) (map : Vector (Nat × Nat) 15) (m : Matrix) : Matrix :=
  (List.range 15).foldl
    (fun m k => setCell m (entry (0, 0) map k).1 (entry (0, 0) map k).2 (formatBit w k)) m

/-- Phase 4 (R171): `S[k]` goes to `ORDER[k]` for every `k` both lists have, which is `k < min(Ltotal, 36)`. -/
def placeBits (bs : List Bool) (m : Matrix) : Matrix :=
  (order.zip bs).foldl (fun m p => setCell m p.1.1 p.1.2 p.2) m

/-- Phase 5 (R172). -/
def applyMask (m : Matrix) : Matrix :=
  (square 11).foldl
    (fun m p => if isData p.1 p.2 && (p.1 + p.2) % 2 == 0 then setCell m p.1 p.2 (cell m p.1 p.2 ^^ true) else m) m

/-- The row word of R173: `Σ M[b][c] << c`. -/
def rowWord (m : Matrix) (r : Nat) : Word :=
  BitVec.ofNat 32 ((List.range 11).map fun c => (cell m r c).toNat <<< c).sum

/-! ## The effects of the phase commands on the state -/

/-- The effect of MCLR (R163). -/
def clearPhase (s : State) : State := s.setMatrix clearedMatrix .cleared

/-- The effect of MFIND (R164). -/
def finderPhase (s : State) : State := s.setMatrix (drawFinder s.matrix) .finder

/-- The effect of MTIME (R165). -/
def timingPhase (s : State) : State := s.setMatrix (drawTiming s.matrix) .timing

/-- The effect of MFMT (R167). -/
def formatPhase (s : State) : State := s.setMatrix (drawFormat s.formatWord s.formatMap s.matrix) .format

/-- The effect of MPLACE (R171). -/
def placePhase (s : State) : State :=
  ((s.setMatrix (placeBits (placementBits s) s.matrix) .placed).setTrunc (decide (droppedCount s > 0))).setResult
    (placementReport s)

/-- The effect of MMASK (R172). -/
def maskPhase (s : State) : State := s.setMatrix (applyMask s.matrix) .done

/-! ## The commands -/

/-- CLASS a, b (R162). -/
def execClassify (a b : Byte) (s : State) : Result :=
  if coordOutOfRange a || coordOutOfRange b then raise .range s
  else complete (s.setResult (zextBit (isData a.toNat b.toNat)))

/-- MCLR (R163), at any PHASE. -/
def execMclr (s : State) : Result := complete (clearPhase s)

/-- MFIND (R164). -/
def execMfind (s : State) : Result := if s.phase ≠ .cleared then raise .seq s else complete (finderPhase s)

/-- MTIME (R165). -/
def execMtime (s : State) : Result := if s.phase ≠ .finder then raise .seq s else complete (timingPhase s)

/-- MFMT (R167). -/
def execMfmt (s : State) : Result := if s.phase ≠ .timing then raise .seq s else complete (formatPhase s)

/-- MPLACE (R171): E_SEQ before E_NOPAR before E_CAPACITY. -/
def execMplace (s : State) : Result :=
  if s.phase ≠ .format then raise .seq s
  else if !s.parValid then raise .nopar s
  else if capacityFails s then raise .capacity s
  else complete (placePhase s)

/-- MMASK (R172). -/
def execMmask (s : State) : Result := if s.phase ≠ .placed then raise .seq s else complete (maskPhase s)

/-- MRDROW b (R173): E_RANGE before E_NOTREADY. -/
def execMrdrow (b : Byte) (s : State) : Result :=
  if coordOutOfRange b then raise .range s
  else if s.phase ≠ .done then raise .notready s
  else complete (s.setResult (rowWord s.matrix b.toNat))

/-- MBUILD (R174): every check runs before any change; then the effects of MCLR and the five phases in order. -/
def execMbuild (s : State) : Result :=
  if !s.parValid then raise .nopar s
  else if capacityFails s then raise .capacity s
  else complete (maskPhase (placePhase (formatPhase (timingPhase (finderPhase (clearPhase s))))))

end Sys2Proof.Machine
end

