-- ==== Sys2Proof/Machine/Message.lean ====
section
/-! DEFINITION. The message buffer, codeword packing and the parity generator (R130, R131), and the commands MSGCLR,
MSGPUT, RSGEN, CWRD and PARRD (R132 to R136). -/

namespace Sys2Proof.Machine

/-- The number of codewords of an `L`-bit message (R131). -/
def codewordCount (L : Nat) : Nat := (L + 7) / 8

/-- Codeword `k` of an `L`-bit message (R131): bit `7 - t` is message bit `8k + t`, and 0 at and above `L`. -/
def codeword (msg : Vector Bool 32) (L k : Nat) : Byte :=
  (List.range 8).foldl
    (fun cw t => cw ||| (if 8 * k + t < L ∧ bitAt msg (8 * k + t) then (1 : Byte) <<< (7 - t) else 0)) 0

/-- `pack(MSG, L)` (R131). -/
def pack (msg : Vector Bool 32) (L : Nat) : List Byte := (List.range (codewordCount L)).map (codeword msg L)

/-- One step of the division at position `i` (R134): if `c = B[i]` is not 0, `B[i+j] <- B[i+j] xor gmul(GEN[j], c)` for
j in 0..2. `g` is the multiply. -/
def divStep (g : Byte → Byte → Byte) (B : List Byte) (i : Nat) : List Byte :=
  let c := B.getD i 0
  if c = 0 then B
  else (List.range 3).foldl (fun B' j => B'.set (i + j) (B'.getD (i + j) 0 ^^^ g (Config.gen.getD j 0) c)) B

/-- The remainder buffer after every message position, left to right (R134). -/
def divide (g : Byte → Byte → Byte) (cw : List Byte) : List Byte :=
  (List.range cw.length).foldl (divStep g) (cw ++ [0, 0])

/-- The two parity codewords of a codeword sequence: the final 2 bytes of the buffer, in order (R134). -/
def rsParity (g : Byte → Byte → Byte) (cw : List Byte) : Vector Byte 2 :=
  let B := divide g cw
  #v[B.getD cw.length 0, B.getD (cw.length + 1) 0]

/-- `zext_32({PAR[0], PAR[1]})` (R134, R136). -/
def parityWord (p : Vector Byte 2) : Word := (byteAt p 0 ++ byteAt p 1).zeroExtend 32

/-- MSG with a bit list written from index `L` on (R133). -/
def appendBits (msg : Vector Bool 32) (L : Nat) (bs : List Bool) : Vector Bool 32 :=
  match bs with
  | [] => msg
  | b :: bs => appendBits (setEntry msg L b) (L + 1) bs

/-- The parity of the message the state holds (R134), over the state's own tables. -/
def messageParity (s : State) : Vector Byte 2 := rsParity (gmul s.exp s.log) (pack s.msg s.msglen)

/-- MSGCLR (R132). -/
def execMsgclr (s : State) : Result := complete (s.setMsglen 0)

/-- MSGPUT n, v (R133): n is checked before v, and the capacity last. -/
def execMsgput (n : BitVec 5) (v : BitVec 16) (s : State) : Result :=
  if countOutOfRange n then raise .range s
  else if valueTooWide n v then raise .range s
  else if s.msglen + n.toNat > Config.msgMaxBits then raise .msgovf s
  else complete (s.setMsg (appendBits s.msg s.msglen (putBits n v)) (s.msglen + n.toNat))

/-- RSGEN (R134): E_NOTABLE is checked before E_NOMSG. -/
def execRsgen (s : State) : Result :=
  if !s.tblValid then raise .notable s
  else if s.msglen = 0 then raise .nomsg s
  else complete ((s.setPar (messageParity s)).setResult (parityWord (messageParity s)))

/-- CWRD b (R135). -/
def execCwrd (b : Byte) (s : State) : Result :=
  if b.toNat ≥ (pack s.msg s.msglen).length then raise .range s
  else complete (s.setResult (zextByte ((pack s.msg s.msglen).getD b.toNat 0)))

/-- PARRD (R136). -/
def execParrd (s : State) : Result :=
  if !s.parValid then raise .nopar s
  else complete (s.setResult (parityWord s.par))

end Sys2Proof.Machine
end

