-- ==== Sys2Proof/Machine/Dispatch.lean ====
section
/-! DEFINITION. The meaning of every command, one arm a constructor (R77). -/

namespace Sys2Proof.Machine

def exec (i : Instr) (s : State) : Host.Outcome State Fault Refusal :=
  match i with
  | .nop => Sys2Proof.Machine.execNop s
  | .tinit => Sys2Proof.Machine.execTinit s
  | .gfmul a b => Sys2Proof.Machine.execGfmul a b s
  | .exprd b => Sys2Proof.Machine.execExprd b s
  | .logrd b => Sys2Proof.Machine.execLogrd b s
  | .msgclr => Sys2Proof.Machine.execMsgclr s
  | .msgput n v => Sys2Proof.Machine.execMsgput n v s
  | .cwrd b => Sys2Proof.Machine.execCwrd b s
  | .rsgen => Sys2Proof.Machine.execRsgen s
  | .parrd => Sys2Proof.Machine.execParrd s
  | .classify a b => Sys2Proof.Machine.execClassify a b s
  | .mclr => Sys2Proof.Machine.execMclr s
  | .mfind => Sys2Proof.Machine.execMfind s
  | .mtime => Sys2Proof.Machine.execMtime s
  | .mfmt => Sys2Proof.Machine.execMfmt s
  | .mplace => Sys2Proof.Machine.execMplace s
  | .mmask => Sys2Proof.Machine.execMmask s
  | .mbuild => Sys2Proof.Machine.execMbuild s
  | .mrdrow b => Sys2Proof.Machine.execMrdrow b s
  | .ctlwr b => Sys2Proof.Machine.execCtlwr b s
  | .stclr => Sys2Proof.Machine.execStclr s

end Sys2Proof.Machine
end

