-- ==== Sys2Proof/Machine/Port.lean ====
section
/-! DEFINITION. The host port: the three abstract operations (R51), the bus window that is an alias of them (R52, R53),
and how the next host operation is found (R21). -/

namespace Sys2Proof.Machine

/-- `issue(w)` (R51, R78): decode runs before any check of the command; a word that spells no command raises E_ILLEGAL
(R79); any other runs as one atomic step (R56). -/
def issue (w : Word) (s : State) : Result :=
  match decode w with
  | .ok i => exec i s
  | .error _ => raise .illegal s

/-- `readResult()` (R51): the value RESULT holds. -/
def readResult (s : State) : Word := s.result

/-- `readStatus()` (R51, R24): the STATUS word. -/
def readStatus (s : State) : Word := statusWord s

/-- What stands at an offset of the port window (R52). -/
inductive PortReg where
  /-- 0x0 CMD, write-only. -/
  | cmd
  /-- 0x4 RESULT, read-only. -/
  | result
  /-- 0x8 STATUS, read-only. -/
  | status
  /-- 0xC, reserved. -/
  | reserved
  deriving DecidableEq, Repr

/-- The register at a word offset (R52); only offsets below 16 are asked for. -/
def portReg (offset : Nat) : PortReg :=
  match offset with
  | 0 => .cmd
  | 4 => .result
  | 8 => .status
  | _ => .reserved

/-- An access of `width` bytes at `addr` on the bus: outside the 16-byte window nothing of this block answers (R64);
inside it only whole aligned words have a step (R53). `k` is what an admitted access does with its register.
DESIGN CHOICE (log entry 4, safe): the fault outside the window, the order of the checks, and that the FIRST byte's
address alone says whether an access is in the window, so that one which starts below PORT_BASE and reaches into the
window faults as one outside it, and one which starts inside and reaches past it is refused for its width. -/
def busAccess (width addr : Nat) (k : PortReg → Result) : Result :=
  if addr < Config.portBase ∨ Config.portBase + 16 ≤ addr then .fault .outsidePort
  else if width ≠ 4 then .refused .notWordAccess
  else if (addr - Config.portBase) % 4 ≠ 0 then .refused .unalignedAccess
  else k (portReg (addr - Config.portBase))

/-- What reading a port register returns (R52). -/
def portRead (s : State) : PortReg → Word
  | .cmd => 0
  | .result => readResult s
  | .status => readStatus s
  | .reserved => 0

/-- What writing a port register does (R52): CMD issues the written word, the others ignore it. -/
def portWrite (data : Word) (s : State) : PortReg → Result
  | .cmd => issue data s
  | .result => .next s
  | .status => .next s
  | .reserved => .next s

/-- One host operation (R51, R52, R261). -/
def hostOp (op : HostOp) (s : State) : Result :=
  match op with
  | .issue w => issue w s
  | .readResult => .next (s.deliver (readResult s))
  | .readStatus => .next (s.deliver (readStatus s))
  | .busWrite width addr data => busAccess width addr (portWrite data s)
  | .busRead width addr => busAccess width addr fun r => .next (s.deliver (portRead s r))
  | .reset => .next s.resetBlock

/-- The host's next operation, none at the end of its program (R21). -/
def nextOp (s : State) : Option HostOp := s.prog[s.pos]?

/-- The program with `op` as the operation at the host's position (at its end, where the position is the length). -/
def State.withNextOp (s : State) (op : HostOp) : State :=
  { s with prog := s.prog.take s.pos ++ op :: s.prog.drop (s.pos + 1), pos := min s.pos s.prog.length }

end Sys2Proof.Machine
end

