-- ==== Sys2Proof/Machine/Step.lean ====
section
/-! DEFINITION. One step of the machine: the host's next operation, with the host's position moved past it (R21, R51). -/

namespace Sys2Proof.Machine

/-- One step. At the end of the program the host sends nothing, and nothing changes (log entry 5). -/
def step (s : State) : Host.Outcome State Fault Refusal :=
  match nextOp s with
  | none => .next s
  | some op => hostOp op s.advance

/-- `s` with the command word `w` (bits at `nbits` and above 0) as the host's next operation (log entry 6). -/
def State.withFetchWord (s : State) (nbits w : Nat) : State :=
  s.withNextOp (.issue (BitVec.ofNat 32 (w % 2 ^ nbits)))

end Sys2Proof.Machine
end

