-- ==== Sys2Proof/Machine/Assembler.lean ====
section
/-! DEFINITION. The assembly syntax (R81) and the two pseudo-instructions (R82). Texts are lists of characters. -/

namespace Sys2Proof.Machine

/-- Why a line is no command (R81). -/
inductive AsmError where
  /-- No mnemonic of R77 or R82. -/
  | unknownMnemonic
  /-- Not as many operands as the format has. -/
  | operandCount
  /-- An operand that is no number of R81 (or, for MSGLOAD, no string of 1 to 32 characters `0` and `1`). -/
  | badOperand
  /-- "An operand that does not fit its field is an assembly error" (R81). -/
  | doesNotFit
  deriving DecidableEq, Repr

/-- The value of a character as a digit of a base up to 16. -/
def digitIn (base : Nat) (c : Char) : Option Nat :=
  let d :=
    if 48 ≤ c.toNat ∧ c.toNat ≤ 57 then c.toNat - 48
    else if 97 ≤ c.toNat ∧ c.toNat ≤ 102 then c.toNat - 87
    else if 65 ≤ c.toNat ∧ c.toNat ≤ 70 then c.toNat - 55
    else base
  if d < base then some d else none

/-- The number a list of digits spells after the value `v` read so far. -/
def numeralFrom (base v : Nat) : List Char → Option Nat
  | [] => some v
  | c :: cs =>
    match digitIn base c with
    | some d => numeralFrom base (base * v + d) cs
    | none => none

/-- A number: decimal, or hexadecimal with a `0x` prefix (R81). -/
def parseNumber : List Char → Option Nat
  | [] => none
  | ['0', 'x'] => none
  | '0' :: 'x' :: cs => numeralFrom 16 0 cs
  | cs => numeralFrom 10 0 cs

/-- A text without the blanks at its ends. -/
def trimBlanks (cs : List Char) : List Char :=
  ((cs.dropWhile (· == ' ')).reverse.dropWhile (· == ' ')).reverse

/-- The parts of a text between commas. -/
def splitCommas : List Char → List (List Char)
  | [] => [[]]
  | ',' :: cs => [] :: splitCommas cs
  | c :: cs =>
    match splitCommas cs with
    | [] => [[c]]
    | p :: ps => (c :: p) :: ps

/-- The operand texts of a line: none for an empty rest, else its parts between commas, trimmed. -/
def operandTexts (cs : List Char) : List (List Char) :=
  if trimBlanks cs = [] then [] else (splitCommas cs).map trimBlanks

/-- An operand of a `w`-bit field. -/
def operand (w : Nat) (cs : List Char) : Except AsmError (BitVec w) :=
  match parseNumber cs with
  | none => .error .badOperand
  | some v => if v < 2 ^ w then .ok (BitVec.ofNat w v) else .error .doesNotFit

/-- Syntax of format N: no operand (R81). -/
def asmN (i : Instr) : List (List Char) → Except AsmError (List Instr)
  | [] => .ok [i]
  | _ => .error .operandCount

/-- Syntax of format B8: one operand (R81). -/
def asmB8 (k : Byte → Instr) : List (List Char) → Except AsmError (List Instr)
  | [b] =>
    match operand 8 b with
    | .ok b => .ok [k b]
    | .error e => .error e
  | _ => .error .operandCount

/-- Syntax with two operands: format B16, and format P with its own widths (R81). -/
def asmTwo (wa wb : Nat) (k : BitVec wa → BitVec wb → Instr) : List (List Char) → Except AsmError (List Instr)
  | [a, b] =>
    match operand wa a, operand wb b with
    | .ok a, .ok b => .ok [k a b]
    | .error e, _ => .error e
    | _, .error e => .error e
  | _ => .error .operandCount

/-- The chunks of at most 16 bits of a bit string, from the left (R82). The first argument bounds their number. -/
def chunks16 : Nat → List Bool → List (List Bool)
  | 0, _ => []
  | k + 1, bs => if bs = [] then [] else bs.take 16 :: chunks16 k (bs.drop 16)

/-- `value(chunk)`: the chunk read as binary, first bit most significant (R82). -/
def chunkValue (bs : List Bool) : Nat := bs.foldl (fun v b => 2 * v + b.toNat) 0

/-- `MSGPUT len(chunk), value(chunk)` (R82). -/
def putChunk (bs : List Bool) : Instr := .msgput (BitVec.ofNat 5 bs.length) (BitVec.ofNat 16 (chunkValue bs))

/-- The pseudo-instruction MSGLOAD (R82a): MSGCLR, then one MSGPUT for each chunk. -/
def msgload (bs : List Bool) : List Instr := .msgclr :: (chunks16 bs.length bs).map putChunk

/-- The pseudo-instruction MREAD (R82b): MRDROW 0 to MRDROW 10. -/
def mread : List Instr := (List.range 11).map fun r => .mrdrow (BitVec.ofNat 8 r)

/-- A string of 1 to 32 characters, each `0` or `1` (R82a). -/
def bitString (cs : List Char) : Option (List Bool) :=
  if 1 ≤ cs.length ∧ cs.length ≤ 32 ∧ cs.all (fun c => c == '0' || c == '1') then some (cs.map (· == '1')) else none

/-- Syntax of MSGLOAD (R82a). -/
def asmMsgload : List (List Char) → Except AsmError (List Instr)
  | [cs] =>
    match bitString cs with
    | some bs => .ok (msgload bs)
    | none => .error .badOperand
  | _ => .error .operandCount

/-- Syntax of MREAD (R82b). -/
def asmMread : List (List Char) → Except AsmError (List Instr)
  | [] => .ok mread
  | _ => .error .operandCount

/-- The mnemonics of R77 and R82, each with the syntax of its format. -/
def asmTable : List (String × (List (List Char) → Except AsmError (List Instr))) :=
  [("NOP", asmN .nop), ("TINIT", asmN .tinit), ("GFMUL", asmTwo 8 8 .gfmul), ("EXPRD", asmB8 .exprd),
   ("LOGRD", asmB8 .logrd), ("MSGCLR", asmN .msgclr), ("MSGPUT", asmTwo 5 16 .msgput), ("CWRD", asmB8 .cwrd),
   ("RSGEN", asmN .rsgen), ("PARRD", asmN .parrd), ("CLASS", asmTwo 8 8 .classify), ("MCLR", asmN .mclr),
   ("MFIND", asmN .mfind), ("MTIME", asmN .mtime), ("MFMT", asmN .mfmt), ("MPLACE", asmN .mplace),
   ("MMASK", asmN .mmask), ("MBUILD", asmN .mbuild), ("MRDROW", asmB8 .mrdrow), ("CTLWR", asmB8 .ctlwr),
   ("STCLR", asmN .stclr), ("MSGLOAD", asmMsgload), ("MREAD", asmMread)]

/-- The commands of one line (R81, R82): the mnemonic, then its operands separated by commas. -/
def assembleLine (line : List Char) : Except AsmError (List Instr) :=
  let body := trimBlanks line
  match asmTable.find? fun row => row.1.toList == body.takeWhile (· != ' ') with
  | none => .error .unknownMnemonic
  | some row => row.2 (operandTexts (body.dropWhile (· != ' ')))

/-- The command words of a program text, one command a line (R81). -/
def assemble : List (List Char) → Except AsmError (List Word)
  | [] => .ok []
  | line :: lines =>
    match assembleLine line, assemble lines with
    | .ok is, .ok ws => .ok (is.map encode ++ ws)
    | .error e, _ => .error e
    | _, .error e => .error e

end Sys2Proof.Machine
end

