-- ==== Sys2Proof/Machine/HostEncoder.lean ====
section
/-! DEFINITION. The host-side data encoder (R210 to R218): from a digit string to the bit sequence that the host loads into
MSG. It binds the host, not the block, which "checks none of these rules" (45_host_encoder.md). -/

namespace Sys2Proof.Machine

/-- The causes of `InvalidInputError` (R211, decision D35). -/
inductive InvalidInput where
  /-- The empty string is not "a non-empty sequence". -/
  | empty
  /-- A character is no decimal digit. -/
  | nonDigit
  /-- The digit count overflows the 3-bit count field. -/
  | countOverflow
  /-- A group's value overflows its width (unreachable, R211). -/
  | groupOverflow
  deriving DecidableEq, Repr

/-- The value of a decimal digit character, none for any other. -/
def digitValue (c : Char) : Option Nat :=
  if 48 ≤ c.toNat ∧ c.toNat ≤ 57 then some (c.toNat - 48) else none

/-- The digits of a string, or the error of its first character that is none (R211). -/
def digitValues : List Char → Except InvalidInput (List Nat)
  | [] => .ok []
  | c :: cs =>
    match digitValue c, digitValues cs with
    | none, _ => .error .nonDigit
    | some _, .error e => .error e
    | some d, .ok ds => .ok (d :: ds)

/-- A fixed-width binary field, most significant bit first (R212, R213). -/
def fieldBits (width v : Nat) : List Bool := (List.range width).map fun k => v.testBit (width - 1 - k)

/-- The groups of 3 digits, left to right; only the last may be shorter (R213). -/
def digitGroups : List Nat → List (List Nat)
  | [] => []
  | [a] => [[a]]
  | [a, b] => [[a, b]]
  | a :: b :: c :: rest => [a, b, c] :: digitGroups rest

/-- The width of a group of `n` digits: 4, 7 or 10 bits (R213). -/
def groupWidth (n : Nat) : Nat := if n = 1 then 4 else if n = 2 then 7 else 10

/-- The numeric value of a group; leading zeros are part of it (R213). -/
def groupValue (g : List Nat) : Nat := g.foldl (fun v d => 10 * v + d) 0

/-- The groups' fields in order, or the overflow of a group's width (R211, R213). -/
def groupFields : List (List Nat) → Except InvalidInput (List Bool)
  | [] => .ok []
  | g :: gs =>
    if groupValue g < 2 ^ groupWidth g.length then
      match groupFields gs with
      | .ok bs => .ok (fieldBits (groupWidth g.length) (groupValue g) ++ bs)
      | .error e => .error e
    else .error .groupOverflow

/-- The padded length `max(20, 4·ceil(L/4))` (R215). -/
def paddedLength (L : Nat) : Nat := max 20 (4 * ((L + 3) / 4))

/-- Right-padding with zero bits (R215). -/
def padBits (bs : List Bool) : List Bool := bs ++ List.replicate (paddedLength bs.length - bs.length) false

/-- `bits(s)`: count field, digit groups, 3-bit terminator, padding (R210, R212 to R215); no mode field (R217). -/
def hostBits (s : List Char) : Except InvalidInput (List Bool) :=
  if s = [] then .error .empty
  else
    match digitValues s with
    | .error e => .error e
    | .ok ds =>
      if ds.length > 7 then .error .countOverflow
      else
        match groupFields (digitGroups ds) with
        | .error e => .error e
        | .ok gs => .ok (padBits (fieldBits 3 ds.length ++ gs ++ fieldBits 3 0))

end Sys2Proof.Machine
end

