-- ==== Sys2Proof/Machine/HostProcedure.lean ====
section
/-! DEFINITION. The host's encode procedure over the block (R219, R220): the source's one operation. It is the host's
behaviour, built from the port operations; it adds nothing to the block. -/

namespace Sys2Proof.Machine

/-- Why a call of `encode` returns no matrix (R219, R233). -/
inductive HostFailure where
  /-- `InvalidInputError`: the host issues no command (R211). -/
  | invalidInput (e : InvalidInput)
  /-- STATUS.LASTERR was not E_OK after a command; code 10 from MBUILD is `CapacityExceededError` (R219, R233). -/
  | commandFailed (code : BitVec 4)
  /-- The port gave the operation no next state (no command does that). -/
  | noStep
  deriving DecidableEq, Repr

/-- Issue one command and check LASTERR in STATUS, as the host must (R219, R220). -/
def hostIssue (i : Instr) (s : State) : Except HostFailure State :=
  match issue (encode i) s with
  | .next t => if (readStatus t).extractLsb' 0 4 = 0 then .ok t else .error (.commandFailed ((readStatus t).extractLsb' 0 4))
  | .fault _ => .error .noStep
  | .refused _ => .error .noStep

/-- Issue a list of commands, stopping at the first that fails. -/
def hostIssueAll : List Instr → State → Except HostFailure State
  | [], s => .ok s
  | i :: is, s =>
    match hostIssue i s with
    | .ok t => hostIssueAll is t
    | .error e => .error e

/-- Issue commands and read RESULT after each of them (R82b, R219). -/
def hostReadAll : List Instr → State → Except HostFailure (List Word × State)
  | [], s => .ok ([], s)
  | i :: is, s =>
    match hostIssue i s with
    | .error e => .error e
    | .ok t =>
      match hostReadAll is t with
      | .error e => .error e
      | .ok (ws, u) => .ok (readResult t :: ws, u)

/-- The commands of `encode` before the matrix is read: TINIT, MSGLOAD, RSGEN, MBUILD (R219). -/
def encodeCommands (bs : List Bool) : List Instr := .tinit :: msgload bs ++ [.rsgen, .mbuild]

/-- `encode(s)` (R219): the eleven row words, and the block's state afterwards. -/
def hostEncode (cs : List Char) (s : State) : Except HostFailure (List Word × State) :=
  match hostBits cs with
  | .error e => .error (.invalidInput e)
  | .ok bs =>
    match hostIssueAll (encodeCommands bs) s with
    | .error e => .error e
    | .ok t => hostReadAll mread t

/-- `matrix[r][c] = RESULT_r[c]` (R219). -/
def hostMatrix (rows : List Word) : List (List Bool) := rows.map fun w => (List.range 11).map w.getLsbD

/-- The port operations of a call of `encode` in which no command fails, as a program for `State.prog` (R21, R219):
every `issue` is followed by a read of STATUS, and each MRDROW by a read of RESULT too. -/
def encodeProgram (bs : List Bool) : List HostOp :=
  (encodeCommands bs).flatMap (fun i => [.issue (encode i), .readStatus])
    ++ mread.flatMap fun i => [.issue (encode i), .readStatus, .readResult]

end Sys2Proof.Machine
end

