-- ==== Sys2Proof/Safety.lean ====
section
/-! DEFINITION. The terms in which claims about the machine are stated: which words spell a command, the field product
and polynomial division as the spec characterises them apart from the block's algorithms (R109, R137), the fixed
template (R176), the invariant of every step, and when two states look alike to the host (R40). -/

namespace Sys2Proof.Machine

/-! ## Spelling: operands, encoding and the E_ILLEGAL errors of a command, all words of an opcode at once -/

/-- A word that spells no command: issuing it changes only LASTERR and STICKY (R79, R231). -/
def IllegalWord (w : Word) : Prop := ∀ s : State, issue w s = .next { s with lasterr := .illegal, sticky := true }

/-- The classes of words that R79 lists: an undefined opcode, a defined opcode with a nonzero reserved bit of its format
(R72 to R75), CTLWR with `w[7:1] ≠ 0`. -/
def ListedIllegal (w : Word) : Prop :=
  let op := (fieldOp w).toNat
  ((0x05 ≤ op ∧ op ≤ 0x0F) ∨ (0x15 ≤ op ∧ op ≤ 0x1F) ∨ (0x29 ≤ op ∧ op ≤ 0x2F) ∨ 0x32 ≤ op) ∨
  (op ∈ [0x00, 0x01, 0x10, 0x13, 0x14, 0x21, 0x22, 0x23, 0x24, 0x25, 0x26, 0x27, 0x31] ∧ w.extractLsb' 0 24 ≠ 0) ∨
  (op ∈ [0x03, 0x04, 0x12, 0x28, 0x30] ∧ w.extractLsb' 8 16 ≠ 0) ∨
  (op ∈ [0x02, 0x20] ∧ w.extractLsb' 16 8 ≠ 0) ∨
  (op = 0x11 ∧ w.extractLsb' 21 3 ≠ 0) ∨
  (op = 0x30 ∧ w.extractLsb' 1 7 ≠ 0)

/-- The words with opcode `op` in format N (R72): the one with `w[23:0] = 0` is `i`, the others are illegal. -/
def SpelledN (op : Byte) (i : Instr) : Prop :=
  ∀ w : Word, fieldOp w = op →
    (w.extractLsb' 0 24 = 0 → decode w = .ok i) ∧ (w.extractLsb' 0 24 ≠ 0 → IllegalWord w)

/-- The words with opcode `op` in format B8 (R73). -/
def SpelledB8 (op : Byte) (k : Byte → Instr) : Prop :=
  ∀ w : Word, fieldOp w = op →
    (w.extractLsb' 8 16 = 0 → decode w = .ok (k (w.extractLsb' 0 8))) ∧ (w.extractLsb' 8 16 ≠ 0 → IllegalWord w)

/-- The words with opcode `op` in format B16 (R74). -/
def SpelledB16 (op : Byte) (k : Byte → Byte → Instr) : Prop :=
  ∀ w : Word, fieldOp w = op →
    (w.extractLsb' 16 8 = 0 → decode w = .ok (k (w.extractLsb' 8 8) (w.extractLsb' 0 8))) ∧
    (w.extractLsb' 16 8 ≠ 0 → IllegalWord w)

/-- The words with opcode `op` in format P (R75). -/
def SpelledP (op : Byte) (k : BitVec 5 → BitVec 16 → Instr) : Prop :=
  ∀ w : Word, fieldOp w = op →
    (w.extractLsb' 21 3 = 0 → decode w = .ok (k (w.extractLsb' 16 5) (w.extractLsb' 0 16))) ∧
    (w.extractLsb' 21 3 ≠ 0 → IllegalWord w)

/-- A command that ends in `raise e` on a state: LASTERR and STICKY change and nothing else (R231). -/
def Raises (i : Instr) (s : State) (e : ErrCode) : Prop :=
  exec i s = .next { s with lasterr := e, sticky := true }

/-- Commands one after another, stopping where one gives no next state. -/
def execAll : List Instr → State → Result
  | [], s => .next s
  | i :: is, s =>
    match exec i s with
    | .next t => execAll is t
    | .fault r => .fault r
    | .refused r => .refused r

/-! ## The field GF(256), apart from the block's tables -/

/-- The carry-less product of two bytes (R109). -/
def carrylessProduct (a b : Byte) : BitVec 16 :=
  (List.range 8).foldl (fun p i => if b.getLsbD i then p ^^^ (a.zeroExtend 16 <<< i) else p) 0

/-- A product reduced modulo 0x11D, from its highest bit down (R100, R109). -/
def reduceField (p : BitVec 16) : Byte :=
  ([6, 5, 4, 3, 2, 1, 0].foldl (fun p k => if p.getLsbD (8 + k) then p ^^^ ((0x11D : BitVec 16) <<< k) else p) p).truncate 8

/-- The product of GF(256): "the carry-less product of a and b reduced modulo 0x11D" (R109). -/
def fieldProduct (a b : Byte) : Byte := reduceField (carrylessProduct a b)

/-- What EXP and LOG hold once they are built (R33, R34, R101, R102), apart from how they are built. -/
structure TablesHold (e l : Vector Byte 256) : Prop where
  exp_zero : byteAt e 0 = 1
  exp_succ : ∀ i, i < 255 → byteAt e (i + 1) = xtime (byteAt e i)
  log_lt : ∀ v : Byte, v ≠ 0 → (byteAt l v.toNat).toNat < 255
  exp_log : ∀ v : Byte, v ≠ 0 → byteAt e (byteAt l v.toNat).toNat = v

/-! ## Digits (R213) -/

/-- The number that a list of decimal digit characters spells, leading zeros included. -/
def decimalValue (cs : List Char) : Nat := cs.foldl (fun v c => 10 * v + (c.toNat - 48)) 0

/-- The number of bits that the groups of `n` digits take together: 10 for each full group of 3, then 4 or 7 for a last
group of 1 or 2. -/
def groupBits (n : Nat) : Nat := 10 * (n / 3) + (if n % 3 = 0 then 0 else if n % 3 = 1 then 4 else 7)

/-! ## Polynomial division over the field (R137) -/

/-- Coefficient `i`, high coefficient first, of the product of the quotient `q` and
`g(x) = x^2 + 0x03·x + 0x20` (R137). -/
def productCoeff (q : List Byte) (i : Nat) : Byte :=
  q.getD i 0 ^^^ (if 1 ≤ i then fieldProduct 0x03 (q.getD (i - 1) 0) else 0)
    ^^^ (if 2 ≤ i then fieldProduct 0x20 (q.getD (i - 2) 0) else 0)

/-- `P(x) = M(x)·x^2 mod g(x)` (R137): some quotient `q` makes every coefficient of `M(x)·x^2` that of `q·g` plus the
remainder's, and the remainder has degree below 2. -/
def IsParityOf (p : Vector Byte 2) (cw : List Byte) : Prop :=
  ∃ q : List Byte, q.length = cw.length ∧
    ∀ i, i < cw.length + 2 →
      (cw ++ [0, 0]).getD i 0 =
        productCoeff q i ^^^ (if i = cw.length then byteAt p 0 else if i = cw.length + 1 then byteAt p 1 else 0)

/-! ## The fixed patterns (R164 to R167, R175, R176) -/

/-- The finder's dark cells (R164): the 7×7 border ring and the inner 3×3 square. -/
def finderPart (r c : Nat) : Bool :=
  decide (r ≤ 6 ∧ c ≤ 6) && (decide (r = 0 ∨ r = 6 ∨ c = 0 ∨ c = 6) || decide (2 ≤ r ∧ r ≤ 4 ∧ 2 ≤ c ∧ c ≤ 4))

/-- The timing pattern's dark cells (R165): even indices from 7 to 10 on row 0 and column 0. -/
def timingPart (r c : Nat) : Bool :=
  (decide (r = 0 ∧ 7 ≤ c ∧ c ≤ 10) && c % 2 == 0) || (decide (c = 0 ∧ 7 ≤ r ∧ r ≤ 10) && r % 2 == 0)

/-- The format information's dark cells (R166): the cells that FORMAT_MAP gives a bit of FORMAT_WORD that is 1. -/
def formatPart (w : BitVec 15) (map : Vector (Nat × Nat) 15) (r c : Nat) : Bool :=
  (List.range 15).any fun k => entry (0, 0) map k == (r, c) && w.getLsbD (14 - k)

/-- The fixed template (R176), for any FORMAT_WORD and FORMAT_MAP. -/
def templateCell (w : BitVec 15) (map : Vector (Nat × Nat) 15) (r c : Nat) : Bool :=
  finderPart r c || timingPart r c || formatPart w map r c

/-- FORMAT_MAP is "a bijection from bit positions 0..14 of the placement order onto the 15 cells" (R166): 15 different
cells, each a format cell. -/
def FormatMapOk (map : Vector (Nat × Nat) 15) : Prop :=
  map.toList.Nodup ∧ ∀ p ∈ map.toList, isFormatCell p.1 p.2 = true

/-- What `M` holds at each PHASE (R30, R175): before placement all of it, after it the reserved cells. -/
def MatrixFits (s : State) : Prop :=
  ∀ r c, r ≤ 10 → c ≤ 10 →
    match s.phase with
    | .cleared => cell s.matrix r c = false
    | .finder => cell s.matrix r c = finderPart r c
    | .timing => cell s.matrix r c = (finderPart r c || timingPart r c)
    | .format => cell s.matrix r c = templateCell s.formatWord s.formatMap r c
    | .placed => isData r c = false → cell s.matrix r c = templateCell s.formatWord s.formatMap r c
    | .done => isData r c = false → cell s.matrix r c = templateCell s.formatWord s.formatMap r c
    | .noMatrix => True

/-! ## The invariant of every step -/

/-- What holds after reset and after every step. -/
structure Inv (s : State) : Prop where
  /-- `TBL_VALID = 1` means that EXP and LOG hold the tables (R28). -/
  tables : s.tblValid = true → TablesHold s.exp s.log
  /-- MSGLEN is 0 to 32 (R32). -/
  msglen : s.msglen ≤ 32
  /-- `PAR_VALID = 1` means that PAR is the parity of the current message (R29), which is not empty (R134). -/
  parity : s.parValid = true →
    s.tblValid = true ∧ 1 ≤ s.msglen ∧ s.par = rsParity fieldProduct (pack s.msg s.msglen)
  /-- PHASE says how far `M` is (R30). -/
  matrix : MatrixFits s
  /-- A failure in LASTERR is also in STICKY (R26). -/
  sticky : s.lasterr ≠ .ok → s.sticky = true
  /-- The parameter FORMAT_MAP is what R166 says. -/
  formatMap : FormatMapOk s.formatMap
  /-- The host's position is 0 to the program's length (R21). -/
  pos : s.pos ≤ s.prog.length

/-! ## What the host cannot see (R40) -/

/-- Two states that differ at most in content that no rule reads (R40): EXP and LOG while TBL_VALID = 0, `LOG[0]`
always, MSG at MSGLEN and above, PAR while PAR_VALID = 0, M at PHASE = 7. -/
structure SameVisible (s t : State) : Prop where
  tblValid : s.tblValid = t.tblValid
  msglen : s.msglen = t.msglen
  parValid : s.parValid = t.parValid
  phase : s.phase = t.phase
  strict : s.strict = t.strict
  trunc : s.trunc = t.trunc
  result : s.result = t.result
  lasterr : s.lasterr = t.lasterr
  sticky : s.sticky = t.sticky
  formatWord : s.formatWord = t.formatWord
  formatMap : s.formatMap = t.formatMap
  prog : s.prog = t.prog
  pos : s.pos = t.pos
  reads : s.reads = t.reads
  exp : s.tblValid = true → s.exp = t.exp
  log : s.tblValid = true → ∀ v : Byte, v ≠ 0 → byteAt s.log v.toNat = byteAt t.log v.toNat
  msg : ∀ k, k < s.msglen → bitAt s.msg k = bitAt t.msg k
  par : s.parValid = true → s.par = t.par
  matrix : s.phase ≠ .noMatrix → s.matrix = t.matrix

/-- Two outcomes of a step that look alike to the host. -/
def SameOutcome : Result → Result → Prop
  | .next s, .next t => SameVisible s t
  | .fault r, .fault r' => r = r'
  | .refused r, .refused r' => r = r'
  | .next _, .fault _ => False
  | .next _, .refused _ => False
  | .fault _, .next _ => False
  | .fault _, .refused _ => False
  | .refused _, .next _ => False
  | .refused _, .fault _ => False

end Sys2Proof.Machine
end

