-- ==== Sys2Proof/Certificates/Slice0/Obligations.lean ====
section
/-! DEFINITION. The statements for the provers, one `def Obligations.<Name> : Prop` each. -/

open Sys2Proof Sys2Proof.Machine

/-! ## Encoding -/

/-- Decoding an encoded well-formed command gives it back, with every operand at every value (R71 to R81). -/
def Obligations.DecodeAfterEncodeGivesTheCommand : Prop :=
  ∀ i : Instr, i.wellFormed = true → decode (encode i) = .ok i

/-- Each word has one meaning: what a word decodes to is well-formed and encodes to that word (R78, R81). -/
def Obligations.EncodeAfterDecodeGivesTheWord : Prop :=
  ∀ (w : Word) (i : Instr), decode w = .ok i → i.wellFormed = true ∧ encode i = w

/-- R77: 21 rows; "A word `w` spells the command of a row exactly when `(w & mask) == match`. At most one row matches
any word". -/
def Obligations.WordSpellsTheRowItMatches : Prop :=
  tableRows.length = 21 ∧
  (∀ i : Instr, ∃ r ∈ tableRows, tableMatch r = tableMatch i ∧ tableMask r = tableMask i) ∧
  (∀ (w : Word) (r : Instr), r ∈ tableRows →
    (w &&& tableMask r = tableMatch r ↔ ∃ i, decode w = .ok i ∧ tableMatch i = tableMatch r)) ∧
  (∀ (w : Word) (r r' : Instr), r ∈ tableRows → r' ∈ tableRows →
    w &&& tableMask r = tableMatch r → w &&& tableMask r' = tableMatch r' → r = r')

/-- R79: every word in a class that the rule lists is illegal, and every word in none of them decodes. -/
def Obligations.UndefinedAndReservedWordsAreIllegal : Prop :=
  (∀ w : Word, ListedIllegal w → IllegalWord w) ∧
  (∀ w : Word, ¬ ListedIllegal w → ∃ i, decode w = .ok i)

/-- A few words written out from the spec (R77, R80, R81) decode to the commands they stand for. -/
def Obligations.WrittenOutWordsDecode : Prop :=
  decode 0x00000000 = .ok .nop ∧
  decode 0x01000000 = .ok .tinit ∧
  decode 0x02000280 = .ok (.gfmul 0x02 0x80) ∧
  decode 0x03000019 = .ok (.exprd 25) ∧
  decode 0x11102200 = .ok (.msgput 16 0x2200) ∧
  decode 0x2000090A = .ok (.classify 9 10) ∧
  decode 0x2800000A = .ok (.mrdrow 10) ∧
  decode 0x30000001 = .ok (.ctlwr 1) ∧
  decode 0xFFFFFFFF = .error .undefinedOpcode

/-- A step runs the host's next command (R21, R51, R78): a word that decodes to `i` runs as `exec i`, the host's position
one further, and a word that decodes to nothing ends in E_ILLEGAL. -/
def Obligations.StepRunsTheIssuedCommand : Prop :=
  ∀ (s : State) (w : Word), s.prog[s.pos]? = some (.issue w) →
    (∀ i, decode w = .ok i → step s = exec i { s with pos := s.pos + 1 }) ∧
    (∀ e, decode w = .error e → step s = .next { s with pos := s.pos + 1, lasterr := .illegal, sticky := true })

/-! ## Whole-machine rules -/

/-- R231: every command answers a next state; one that fails writes LASTERR and STICKY and nothing else. The same of a
word that is no command. -/
def Obligations.FailingCommandWritesOnlyLasterrAndSticky : Prop :=
  (∀ (i : Instr) (s : State), ∃ t, exec i s = .next t ∧
    (t.lasterr ≠ .ok → t = { s with lasterr := t.lasterr, sticky := true })) ∧
  (∀ (w : Word) (s : State), ∃ t, issue w s = .next t ∧
    (t.lasterr ≠ .ok → t = { s with lasterr := t.lasterr, sticky := true }))

/-- R230: the numeric codes, of which there are no others, and that each is reported only by the commands and for the
causes the table gives. -/
def Obligations.EachErrorCodeHasItsCause : Prop :=
  (ErrCode.ok.bits = 0 ∧ ErrCode.illegal.bits = 1 ∧ ErrCode.range.bits = 2 ∧ ErrCode.logzero.bits = 3 ∧
    ErrCode.notable.bits = 4 ∧ ErrCode.nomsg.bits = 5 ∧ ErrCode.msgovf.bits = 6 ∧ ErrCode.nopar.bits = 7 ∧
    ErrCode.seq.bits = 8 ∧ ErrCode.notready.bits = 9 ∧ ErrCode.capacity.bits = 10) ∧
  (∀ e : ErrCode, e.bits.toNat ≤ 10) ∧
  (∀ (w : Word) (s t : State), issue w s = .next t → (t.lasterr = .illegal ↔ ∃ e, decode w = .error e)) ∧
  ∀ (i : Instr) (s t : State), exec i s = .next t →
    (t.lasterr = .range →
      (∃ n v, i = .msgput n v ∧ (n.toNat = 0 ∨ n.toNat > 16 ∨ v >>> n.toNat ≠ 0)) ∨
      (∃ b, i = .cwrd b ∧ b.toNat ≥ (s.msglen + 7) / 8) ∨
      (∃ a b, i = .classify a b ∧ (a.toNat > 10 ∨ b.toNat > 10)) ∨
      (∃ b, i = .mrdrow b ∧ b.toNat > 10)) ∧
    (t.lasterr = .logzero → i = .logrd 0) ∧
    (t.lasterr = .notable → s.tblValid = false ∧ ((∃ a b, i = .gfmul a b) ∨ (∃ b, i = .exprd b) ∨ (∃ b, i = .logrd b) ∨ i = .rsgen)) ∧
    (t.lasterr = .nomsg → i = .rsgen ∧ s.msglen = 0) ∧
    (t.lasterr = .msgovf → ∃ n v, i = .msgput n v ∧ s.msglen + n.toNat > 32) ∧
    (t.lasterr = .nopar → s.parValid = false ∧ (i = .parrd ∨ i = .mplace ∨ i = .mbuild)) ∧
    (t.lasterr = .seq →
      (i = .mfind ∧ s.phase ≠ .cleared) ∨ (i = .mtime ∧ s.phase ≠ .finder) ∨ (i = .mfmt ∧ s.phase ≠ .timing) ∨
      (i = .mplace ∧ s.phase ≠ .format) ∨ (i = .mmask ∧ s.phase ≠ .placed)) ∧
    (t.lasterr = .notready → s.phase ≠ .done ∧ ∃ b, i = .mrdrow b) ∧
    (t.lasterr = .capacity → s.strict = true ∧ s.msglen + 16 > 36 ∧ (i = .mplace ∨ i = .mbuild)) ∧
    t.lasterr ≠ .illegal

/-- R23: only ten commands write RESULT, and none that fails; an 8-bit result has zeros above it; a host write to RESULT
is ignored (R52) and only moves the host's position (that a bus access moves it is the model's, log entry 7); RESULT is
0 after reset. -/
def Obligations.ResultHasTenWriters : Prop :=
  State.reset.result = 0 ∧
  (∀ (s : State) (d : Word), s.prog[s.pos]? = some (.busWrite 4 (Config.portBase + 4) d) →
    step s = .next { s with pos := s.pos + 1 }) ∧
  (∀ (w : Word) (s t : State), issue w s = .next t → t.lasterr ≠ .ok → t.result = s.result) ∧
  ∀ (i : Instr) (s t : State), exec i s = .next t →
    (t.result ≠ s.result →
      (∃ a b, i = .gfmul a b) ∨ (∃ b, i = .exprd b) ∨ (∃ b, i = .logrd b) ∨ (∃ b, i = .cwrd b) ∨ i = .rsgen ∨
      i = .parrd ∨ (∃ a b, i = .classify a b) ∨ i = .mplace ∨ i = .mbuild ∨ (∃ b, i = .mrdrow b)) ∧
    (t.lasterr = .ok →
      ((∃ a b, i = .gfmul a b) ∨ (∃ b, i = .exprd b) ∨ (∃ b, i = .logrd b) ∨ (∃ b, i = .cwrd b) →
        t.result.toNat < 256) ∧
      (i = .rsgen ∨ i = .parrd → t.result.toNat < 65536) ∧
      ((∃ a b, i = .classify a b) → t.result.toNat < 2) ∧
      ((∃ b, i = .mrdrow b) → t.result.toNat < 2048))

/-- R26: STICKY is set by every command that ends in an error, cleared by STCLR and reset only, and kept by every
other completing command. -/
def Obligations.StickyIsClearedOnlyByStclrAndReset : Prop :=
  State.reset.sticky = false ∧
  (∀ s : State, s.resetBlock.sticky = false) ∧
  (∀ (w : Word) (s t : State), issue w s = .next t →
    (t.lasterr ≠ .ok → t.sticky = true) ∧
    (t.lasterr = .ok → decode w ≠ .ok .stclr → t.sticky = s.sticky) ∧
    (decode w = .ok .stclr → t.sticky = false))

/-- R27: a completing MPLACE or MBUILD writes TRUNC by whether it dropped bits, STCLR clears it, nothing else changes
it, and it is 0 after reset. -/
def Obligations.TruncFollowsThePlacement : Prop :=
  State.reset.trunc = false ∧
  (∀ (w : Word) (s t : State), issue w s = .next t →
    (decode w = .ok .mplace ∨ decode w = .ok .mbuild → t.lasterr = .ok → t.trunc = decide (s.msglen + 16 > 36)) ∧
    (decode w = .ok .stclr → t.trunc = false) ∧
    (t.lasterr ≠ .ok ∨ (decode w ≠ .ok .mplace ∧ decode w ≠ .ok .mbuild ∧ decode w ≠ .ok .stclr) → t.trunc = s.trunc))

/-- R28, R38: only TINIT sets TBL_VALID, no command clears it, and while it is 1 no command changes EXP or LOG, and TINIT
changes nothing but LASTERR. -/
def Obligations.TablesNeverChangeOnceValid : Prop :=
  State.reset.tblValid = false ∧
  ∀ (i : Instr) (s t : State), exec i s = .next t →
    t.tblValid = (s.tblValid || decide (i = .tinit)) ∧
    (s.tblValid = true → t.exp = s.exp ∧ t.log = s.log ∧ (i = .tinit → t = { s with lasterr := .ok }))

/-- R29: PAR_VALID is set by a completing RSGEN, cleared by MSGCLR, a completing MSGPUT and reset, and kept by every
other command; PARRD, MPLACE (at its phase) and MBUILD fail with E_NOPAR while it is 0. -/
def Obligations.ParValidFollowsTheMessage : Prop :=
  State.reset.parValid = false ∧
  (∀ s : State, s.resetBlock.parValid = false) ∧
  (∀ (i : Instr) (s t : State), exec i s = .next t →
    t.parValid =
      match i with
      | .rsgen => s.parValid || decide (t.lasterr = .ok)
      | .msgclr => false
      | .msgput _ _ => s.parValid && decide (t.lasterr ≠ .ok)
      | _ => s.parValid) ∧
  (∀ s : State, s.parValid = false →
    Raises .parrd s .nopar ∧ Raises .mbuild s .nopar ∧ (s.phase = .format → Raises .mplace s .nopar))

/-- R30: the codes of PHASE, which command sets each value, and that each phase command needs the phase before it. -/
def Obligations.PhaseMovesInOrder : Prop :=
  (Phase.cleared.bits = 0 ∧ Phase.finder.bits = 1 ∧ Phase.timing.bits = 2 ∧ Phase.format.bits = 3 ∧
    Phase.placed.bits = 4 ∧ Phase.done.bits = 5 ∧ Phase.noMatrix.bits = 7) ∧
  (∀ p : Phase, p.bits ≠ 6) ∧
  State.reset.phase = .noMatrix ∧
  (∀ (i : Instr) (s t : State), exec i s = .next t → t.phase ≠ s.phase →
    (i = .mclr ∧ t.phase = .cleared) ∨
    (i = .mfind ∧ s.phase = .cleared ∧ t.phase = .finder) ∨
    (i = .mtime ∧ s.phase = .finder ∧ t.phase = .timing) ∨
    (i = .mfmt ∧ s.phase = .timing ∧ t.phase = .format) ∨
    (i = .mplace ∧ s.phase = .format ∧ t.phase = .placed) ∨
    (i = .mmask ∧ s.phase = .placed ∧ t.phase = .done) ∨
    (i = .mbuild ∧ t.phase = .done)) ∧
  (∀ s : State,
    (s.phase ≠ .cleared → Raises .mfind s .seq) ∧ (s.phase ≠ .finder → Raises .mtime s .seq) ∧
    (s.phase ≠ .timing → Raises .mfmt s .seq) ∧ (s.phase ≠ .format → Raises .mplace s .seq) ∧
    (s.phase ≠ .placed → Raises .mmask s .seq) ∧
    (s.phase ≠ .done → ∀ b : Byte, b.toNat ≤ 10 → Raises (.mrdrow b) s .notready))

/-- R39: while PHASE = 5 only MCLR and MBUILD change M, and the phase commands fail with E_SEQ. -/
def Obligations.FinishedMatrixIsImmutable : Prop :=
  ∀ s : State, s.phase = .done →
    (∀ (i : Instr) (t : State), exec i s = .next t → t.matrix ≠ s.matrix → i = .mclr ∨ i = .mbuild) ∧
    Raises .mfind s .seq ∧ Raises .mtime s .seq ∧ Raises .mfmt s .seq ∧ Raises .mplace s .seq ∧ Raises .mmask s .seq

/-- A step moves the host's position by exactly one for the operation it runs and keeps the program. R21 says so of each
command issued; that reads, bus accesses and the reset move it too is the model's (log entry 7), that no step writes
the parameters is log entry 2, and that nothing changes with no operation left is log entry 5. -/
def Obligations.StepMovesOnByOneAndKeepsTheProgram : Prop :=
  ∀ s t : State, step s = .next t →
    t.prog = s.prog ∧ t.formatWord = s.formatWord ∧ t.formatMap = s.formatMap ∧
    (s.pos < s.prog.length → t.pos = s.pos + 1) ∧
    (s.prog.length ≤ s.pos → t = s)

/-- The invariant holds after reset. It rests on log entry 1 (the model's values for M, EXP and LOG) in no clause: each
clause about them has a flag for its premise that reset leaves 0. -/
def Obligations.InvariantHoldsAfterReset : Prop := Inv State.reset

/-- Every step keeps the invariant, from every state that has it: the tables are the field's while TBL_VALID = 1, PAR is
the parity of the message while PAR_VALID = 1, MSGLEN stays at most 32, M is as far as PHASE says, a failure in LASTERR
is also in STICKY. That FORMAT_MAP stays a map of R166 and the position within the program rests on log entries 2 and 7
(no step writes the parameters; each host operation moves the position by one). -/
def Obligations.EveryStepKeepsTheInvariant : Prop :=
  ∀ s t : State, Inv s → step s = .next t → Inv t

/-- R40: "The block has no hidden state that a program can observe indirectly". Two states that differ only in content
that no rule reads step to outcomes that differ only there; and while no matrix is complete, what M holds changes
neither the RESULT nor the STATUS that a word leaves. -/
def Obligations.UnreadableContentIsNeverObserved : Prop :=
  (∀ s t : State, SameVisible s t → SameOutcome (step s) (step t)) ∧
  ∀ (s t u : State) (m : Matrix) (w : Word), s.phase ≠ .done → issue w s = .next t →
    issue w { s with matrix := m } = .next u → t.result = u.result ∧ statusWord t = statusWord u

/-! ## Field arithmetic -/

/-- R101's doubling step, in the two readings of the source: the 9-bit shifted value xor 0x11D, and its low 8 bits xor
0x1D. -/
def Obligations.DoublingStepReducesOnce : Prop :=
  ∀ v : Byte,
    (2 * v.toNat ≤ 255 → (xtime v).toNat = 2 * v.toNat) ∧
    (2 * v.toNat > 255 → (xtime v).toNat = (2 * v.toNat) ^^^ 0x11D ∧ xtime v = BitVec.ofNat 8 (2 * v.toNat) ^^^ 0x1D)

/-- R101, R102, R104: from TBL_VALID = 0, TINIT completes; EXP is built by doubling from 1 and LOG from EXP, `LOG[0]`
keeps its content, and nothing else changes but TBL_VALID and LASTERR. With TBL_VALID = 1 it changes only LASTERR. -/
def Obligations.TinitBuildsTheTables : Prop :=
  SpelledN 0x01 .tinit ∧
  (∀ s : State, s.tblValid = true → exec .tinit s = .next { s with lasterr := .ok }) ∧
  (∀ s : State, s.tblValid = false →
    ∃ t, exec .tinit s = .next t ∧
      t = { s with exp := t.exp, log := t.log, tblValid := true, lasterr := .ok } ∧
      byteAt t.exp 0 = 1 ∧
      (∀ i, 1 ≤ i → i ≤ 255 → byteAt t.exp i = xtime (byteAt t.exp (i - 1))) ∧
      byteAt t.exp 255 = 1 ∧
      (∀ i j, i ≤ 254 → j ≤ 254 → byteAt t.exp i = byteAt t.exp j → i = j) ∧
      (∀ i, i ≤ 254 → byteAt t.exp i ≠ 0 ∧ (byteAt t.log (byteAt t.exp i).toNat).toNat = i) ∧
      (∀ v : Byte, v ≠ 0 → (byteAt t.log v.toNat).toNat ≤ 254 ∧ byteAt t.exp (byteAt t.log v.toNat).toNat = v) ∧
      byteAt t.log 0 = byteAt s.log 0)

/-- R110: after TINIT the tables are the ones the spec prints, whatever `LOG[0]` holds. -/
def Obligations.TablesAreThePublishedOnes : Prop :=
  ∀ s : State, s.tblValid = false → ∃ t, exec .tinit s = .next t ∧
    t.exp.toList.map BitVec.toNat =
      [0x01, 0x02, 0x04, 0x08, 0x10, 0x20, 0x40, 0x80, 0x1D, 0x3A, 0x74, 0xE8, 0xCD, 0x87, 0x13, 0x26] ++
      [0x4C, 0x98, 0x2D, 0x5A, 0xB4, 0x75, 0xEA, 0xC9, 0x8F, 0x03, 0x06, 0x0C, 0x18, 0x30, 0x60, 0xC0] ++
      [0x9D, 0x27, 0x4E, 0x9C, 0x25, 0x4A, 0x94, 0x35, 0x6A, 0xD4, 0xB5, 0x77, 0xEE, 0xC1, 0x9F, 0x23] ++
      [0x46, 0x8C, 0x05, 0x0A, 0x14, 0x28, 0x50, 0xA0, 0x5D, 0xBA, 0x69, 0xD2, 0xB9, 0x6F, 0xDE, 0xA1] ++
      [0x5F, 0xBE, 0x61, 0xC2, 0x99, 0x2F, 0x5E, 0xBC, 0x65, 0xCA, 0x89, 0x0F, 0x1E, 0x3C, 0x78, 0xF0] ++
      [0xFD, 0xE7, 0xD3, 0xBB, 0x6B, 0xD6, 0xB1, 0x7F, 0xFE, 0xE1, 0xDF, 0xA3, 0x5B, 0xB6, 0x71, 0xE2] ++
      [0xD9, 0xAF, 0x43, 0x86, 0x11, 0x22, 0x44, 0x88, 0x0D, 0x1A, 0x34, 0x68, 0xD0, 0xBD, 0x67, 0xCE] ++
      [0x81, 0x1F, 0x3E, 0x7C, 0xF8, 0xED, 0xC7, 0x93, 0x3B, 0x76, 0xEC, 0xC5, 0x97, 0x33, 0x66, 0xCC] ++
      [0x85, 0x17, 0x2E, 0x5C, 0xB8, 0x6D, 0xDA, 0xA9, 0x4F, 0x9E, 0x21, 0x42, 0x84, 0x15, 0x2A, 0x54] ++
      [0xA8, 0x4D, 0x9A, 0x29, 0x52, 0xA4, 0x55, 0xAA, 0x49, 0x92, 0x39, 0x72, 0xE4, 0xD5, 0xB7, 0x73] ++
      [0xE6, 0xD1, 0xBF, 0x63, 0xC6, 0x91, 0x3F, 0x7E, 0xFC, 0xE5, 0xD7, 0xB3, 0x7B, 0xF6, 0xF1, 0xFF] ++
      [0xE3, 0xDB, 0xAB, 0x4B, 0x96, 0x31, 0x62, 0xC4, 0x95, 0x37, 0x6E, 0xDC, 0xA5, 0x57, 0xAE, 0x41] ++
      [0x82, 0x19, 0x32, 0x64, 0xC8, 0x8D, 0x07, 0x0E, 0x1C, 0x38, 0x70, 0xE0, 0xDD, 0xA7, 0x53, 0xA6] ++
      [0x51, 0xA2, 0x59, 0xB2, 0x79, 0xF2, 0xF9, 0xEF, 0xC3, 0x9B, 0x2B, 0x56, 0xAC, 0x45, 0x8A, 0x09] ++
      [0x12, 0x24, 0x48, 0x90, 0x3D, 0x7A, 0xF4, 0xF5, 0xF7, 0xF3, 0xFB, 0xEB, 0xCB, 0x8B, 0x0B, 0x16] ++
      [0x2C, 0x58, 0xB0, 0x7D, 0xFA, 0xE9, 0xCF, 0x83, 0x1B, 0x36, 0x6C, 0xD8, 0xAD, 0x47, 0x8E, 0x01] ∧
    t.log.toList.tail.map BitVec.toNat =
      [0x00, 0x01, 0x19, 0x02, 0x32, 0x1A, 0xC6, 0x03, 0xDF, 0x33, 0xEE, 0x1B, 0x68, 0xC7, 0x4B] ++
      [0x04, 0x64, 0xE0, 0x0E, 0x34, 0x8D, 0xEF, 0x81, 0x1C, 0xC1, 0x69, 0xF8, 0xC8, 0x08, 0x4C, 0x71] ++
      [0x05, 0x8A, 0x65, 0x2F, 0xE1, 0x24, 0x0F, 0x21, 0x35, 0x93, 0x8E, 0xDA, 0xF0, 0x12, 0x82, 0x45] ++
      [0x1D, 0xB5, 0xC2, 0x7D, 0x6A, 0x27, 0xF9, 0xB9, 0xC9, 0x9A, 0x09, 0x78, 0x4D, 0xE4, 0x72, 0xA6] ++
      [0x06, 0xBF, 0x8B, 0x62, 0x66, 0xDD, 0x30, 0xFD, 0xE2, 0x98, 0x25, 0xB3, 0x10, 0x91, 0x22, 0x88] ++
      [0x36, 0xD0, 0x94, 0xCE, 0x8F, 0x96, 0xDB, 0xBD, 0xF1, 0xD2, 0x13, 0x5C, 0x83, 0x38, 0x46, 0x40] ++
      [0x1E, 0x42, 0xB6, 0xA3, 0xC3, 0x48, 0x7E, 0x6E, 0x6B, 0x3A, 0x28, 0x54, 0xFA, 0x85, 0xBA, 0x3D] ++
      [0xCA, 0x5E, 0x9B, 0x9F, 0x0A, 0x15, 0x79, 0x2B, 0x4E, 0xD4, 0xE5, 0xAC, 0x73, 0xF3, 0xA7, 0x57] ++
      [0x07, 0x70, 0xC0, 0xF7, 0x8C, 0x80, 0x63, 0x0D, 0x67, 0x4A, 0xDE, 0xED, 0x31, 0xC5, 0xFE, 0x18] ++
      [0xE3, 0xA5, 0x99, 0x77, 0x26, 0xB8, 0xB4, 0x7C, 0x11, 0x44, 0x92, 0xD9, 0x23, 0x20, 0x89, 0x2E] ++
      [0x37, 0x3F, 0xD1, 0x5B, 0x95, 0xBC, 0xCF, 0xCD, 0x90, 0x87, 0x97, 0xB2, 0xDC, 0xFC, 0xBE, 0x61] ++
      [0xF2, 0x56, 0xD3, 0xAB, 0x14, 0x2A, 0x5D, 0x9E, 0x84, 0x3C, 0x39, 0x53, 0x47, 0x6D, 0x41, 0xA2] ++
      [0x1F, 0x2D, 0x43, 0xD8, 0xB7, 0x7B, 0xA4, 0x76, 0xC4, 0x17, 0x49, 0xEC, 0x7F, 0x0C, 0x6F, 0xF6] ++
      [0x6C, 0xA1, 0x3B, 0x52, 0x29, 0x9D, 0x55, 0xAA, 0xFB, 0x60, 0x86, 0xB1, 0xBB, 0xCC, 0x3E, 0x5A] ++
      [0xCB, 0x59, 0x5F, 0xB0, 0x9C, 0xA9, 0xA0, 0x51, 0x0B, 0xF5, 0x16, 0xEB, 0x7A, 0x75, 0x2C, 0xD7] ++
      [0x4F, 0xAE, 0xD5, 0xE9, 0xE6, 0xE7, 0xAD, 0xE8, 0x74, 0xD6, 0xF4, 0xEA, 0xA8, 0x50, 0x58, 0xAF]

/-- R103, R105: GFMUL completes whenever TBL_VALID = 1, for every operand, with 0 for a zero operand and else
`EXP[(LOG[a] + LOG[b]) mod 255]`; while TBL_VALID = 0 it fails with E_NOTABLE, for zero operands too. -/
def Obligations.GfmulMultipliesThroughTheTables : Prop :=
  SpelledB16 0x02 .gfmul ∧
  (∀ (a b : Byte) (s : State), s.tblValid = false → Raises (.gfmul a b) s .notable) ∧
  (∀ (a b : Byte) (s : State), s.tblValid = true → a = 0 ∨ b = 0 →
    exec (.gfmul a b) s = .next { s with result := 0, lasterr := .ok }) ∧
  (∀ (a b : Byte) (s : State), s.tblValid = true → a ≠ 0 → b ≠ 0 →
    exec (.gfmul a b) s =
      .next { s with
        result := (byteAt s.exp (((byteAt s.log a.toNat).toNat + (byteAt s.log b.toNat).toNat) % 255)).zeroExtend 32,
        lasterr := .ok })

/-- R105: GFMUL writes gmul over the tables; with the tables built that is the product of the field (R109), the
carry-less product of its operands reduced modulo 0x11D, so 1 is neutral, the operands commute, and the products of the
rule's corner cases come out. A zero operand gives 0. -/
def Obligations.GfmulGivesTheFieldProduct : Prop :=
  SpelledB16 0x02 .gfmul ∧
  ∀ s : State,
    (s.tblValid = false → ∀ a b : Byte, Raises (.gfmul a b) s .notable) ∧
    (s.tblValid = true → ∀ a b : Byte,
      exec (.gfmul a b) s = .next { s with result := (gmul s.exp s.log a b).zeroExtend 32, lasterr := .ok }) ∧
    (s.tblValid = true → ∀ a : Byte,
      exec (.gfmul a 0) s = .next { s with result := 0, lasterr := .ok } ∧
      exec (.gfmul 0 a) s = .next { s with result := 0, lasterr := .ok }) ∧
    (s.tblValid = true → TablesHold s.exp s.log →
      (∀ a b : Byte,
        exec (.gfmul a b) s = .next { s with result := (fieldProduct a b).zeroExtend 32, lasterr := .ok }) ∧
      (∀ a b : Byte, exec (.gfmul a b) s = exec (.gfmul b a) s) ∧
      (∀ b : Byte, exec (.gfmul 1 b) s = .next { s with result := b.zeroExtend 32, lasterr := .ok }) ∧
      exec (.gfmul 0x02 0x80) s = .next { s with result := 0x1D, lasterr := .ok } ∧
      exec (.gfmul 0x02 0x8E) s = .next { s with result := 0x01, lasterr := .ok } ∧
      exec (.gfmul 0x47 0x8E) s = .next { s with result := 0xAD, lasterr := .ok } ∧
      exec (.gfmul 0x53 0xCA) s = .next { s with result := 0x8F, lasterr := .ok })

/-- R109: the laws of gmul over the tables, for all operands. -/
def Obligations.MultiplyObeysTheFieldLaws : Prop :=
  ∀ e l : Vector Byte 256, TablesHold e l →
    (∀ a, gmul e l a 0 = 0) ∧ (∀ b, gmul e l 0 b = 0) ∧
    (∀ a b, gmul e l a b = gmul e l b a) ∧
    (∀ a, gmul e l 1 a = a) ∧
    (∀ a b c, gmul e l a (b ^^^ c) = gmul e l a b ^^^ gmul e l a c) ∧
    (∀ a b c, gmul e l (gmul e l a b) c = gmul e l a (gmul e l b c)) ∧
    (∀ a, a ≠ 0 → ∃! b, gmul e l a b = 1) ∧
    (∀ a b, gmul e l a b = fieldProduct a b)

/-- R107: EXPRD reads `EXP[b]` for every index, or fails with E_NOTABLE. -/
def Obligations.ExprdReadsTheExpTable : Prop :=
  SpelledB8 0x03 .exprd ∧
  (∀ (b : Byte) (s : State), s.tblValid = false → Raises (.exprd b) s .notable) ∧
  (∀ (b : Byte) (s : State), s.tblValid = true →
    exec (.exprd b) s = .next { s with result := (byteAt s.exp b.toNat).zeroExtend 32, lasterr := .ok }) ∧
  (∀ s : State, TablesHold s.exp s.log → byteAt s.exp 0 = 1 ∧ byteAt s.exp 255 = 1 ∧ byteAt s.exp 8 = 0x1D ∧
    byteAt s.exp 25 = 0x03)

/-- R106: LOGRD 0 fails with E_LOGZERO before E_NOTABLE is looked at; any other element reads `LOG[b]`. -/
def Obligations.LogrdReadsTheLogTable : Prop :=
  SpelledB8 0x04 .logrd ∧
  (∀ s : State, Raises (.logrd 0) s .logzero) ∧
  (∀ (b : Byte) (s : State), b ≠ 0 → s.tblValid = false → Raises (.logrd b) s .notable) ∧
  (∀ (b : Byte) (s : State), b ≠ 0 → s.tblValid = true →
    exec (.logrd b) s = .next { s with result := (byteAt s.log b.toNat).zeroExtend 32, lasterr := .ok }) ∧
  (∀ s : State, TablesHold s.exp s.log →
    (∀ b : Byte, b ≠ 0 → (byteAt s.log b.toNat).toNat ≤ 254) ∧ byteAt s.log 1 = 0 ∧ byteAt s.log 0x8E = 254 ∧
    byteAt s.log 3 = 25)

/-! ## Message and parity -/

/-- R131: `ceil(L/8)` codewords; the earliest bit of a group is bit 7, and the bits at and above L are 0. -/
def Obligations.PackingPutsTheEarliestBitHighest : Prop :=
  ∀ (msg : Vector Bool 32) (L : Nat),
    (pack msg L).length = (L + 7) / 8 ∧
    ∀ k t, k < (L + 7) / 8 → t < 8 →
      ((pack msg L).getD k 0).getLsbD (7 - t) = (decide (8 * k + t < L) && bitAt msg (8 * k + t))

/-- R132: MSGCLR always completes and writes MSGLEN, PAR_VALID and LASTERR only. -/
def Obligations.MsgclrEmptiesTheMessage : Prop :=
  SpelledN 0x10 .msgclr ∧
  ∀ s : State, exec .msgclr s = .next { s with msglen := 0, parValid := false, lasterr := .ok }

/-- R133: MSGPUT's checks in their order, and what it appends: the low n bits of v, bit n-1 first, at MSGLEN; the
earlier message bits and everything else stay. -/
def Obligations.MsgputAppendsTheBits : Prop :=
  SpelledP 0x11 .msgput ∧
  (∀ (n : BitVec 5) (v : BitVec 16) (s : State),
    (n.toNat = 0 ∨ n.toNat > 16 → Raises (.msgput n v) s .range) ∧
    (v >>> n.toNat ≠ 0 → Raises (.msgput n v) s .range) ∧
    (1 ≤ n.toNat → n.toNat ≤ 16 → v >>> n.toNat = 0 → s.msglen + n.toNat > 32 → Raises (.msgput n v) s .msgovf) ∧
    (1 ≤ n.toNat → n.toNat ≤ 16 → v >>> n.toNat = 0 → s.msglen + n.toNat ≤ 32 →
      ∃ t, exec (.msgput n v) s = .next t ∧
        t = { s with msg := t.msg, msglen := s.msglen + n.toNat, parValid := false, lasterr := .ok } ∧
        (∀ k, k < n.toNat → bitAt t.msg (s.msglen + k) = v.getLsbD (n.toNat - 1 - k)) ∧
        (∀ k, k < s.msglen → bitAt t.msg k = bitAt s.msg k)))

/-- R135: CWRD reads packed codeword b, or fails with E_RANGE for an index at or above the codeword count. -/
def Obligations.CwrdReadsOneCodeword : Prop :=
  SpelledB8 0x12 .cwrd ∧
  ∀ (b : Byte) (s : State),
    (b.toNat ≥ (s.msglen + 7) / 8 → Raises (.cwrd b) s .range) ∧
    (b.toNat < (s.msglen + 7) / 8 →
      exec (.cwrd b) s =
        .next { s with result := ((pack s.msg s.msglen).getD b.toNat 0).zeroExtend 32, lasterr := .ok })

/-- R134: RSGEN fails with E_NOTABLE, then with E_NOMSG; else it writes the parity of the packed message by the long
division of the rule, PAR_VALID and RESULT. -/
def Obligations.RsgenDividesTheMessage : Prop :=
  SpelledN 0x13 .rsgen ∧
  ∀ s : State,
    (s.tblValid = false → Raises .rsgen s .notable) ∧
    (s.tblValid = true → s.msglen = 0 → Raises .rsgen s .nomsg) ∧
    (s.tblValid = true → s.msglen ≠ 0 →
      exec .rsgen s =
        .next { s with
          par := rsParity (gmul s.exp s.log) (pack s.msg s.msglen), parValid := true,
          result := (byteAt (rsParity (gmul s.exp s.log) (pack s.msg s.msglen)) 0 ++
            byteAt (rsParity (gmul s.exp s.log) (pack s.msg s.msglen)) 1).zeroExtend 32,
          lasterr := .ok })

/-- R134, R137: with the tables built, the parity RSGEN leaves is the remainder of the message polynomial times x^2
divided by `x^2 + 0x03·x + 0x20`, and RESULT holds its two bytes. -/
def Obligations.RsgenLeavesThePolynomialRemainder : Prop :=
  ∀ s : State, s.tblValid = true → TablesHold s.exp s.log → s.msglen ≠ 0 →
    ∃ t, exec .rsgen s = .next t ∧ t = { s with par := t.par, parValid := true, result := t.result, lasterr := .ok } ∧
      IsParityOf t.par (pack s.msg s.msglen) ∧
      t.result.toNat = 256 * (byteAt t.par 0).toNat + (byteAt t.par 1).toNat

/-- R137: the division gives the polynomial remainder, and its five consequences: a message with its parity has parity
0, parity is linear, a leading zero codeword changes nothing, parity is a function of the codewords, and a one-codeword
message has the parity `[gmul(3, c), gmul(0x20, c)]`. -/
def Obligations.ParityIsTheRemainderAndIsLinear : Prop :=
  (∀ cw : List Byte, IsParityOf (rsParity fieldProduct cw) cw) ∧
  (∀ (cw : List Byte) (p : Vector Byte 2), IsParityOf p cw → p = rsParity fieldProduct cw) ∧
  (∀ cw : List Byte,
    rsParity fieldProduct
      (cw ++ [byteAt (rsParity fieldProduct cw) 0, byteAt (rsParity fieldProduct cw) 1]) = #v[0, 0]) ∧
  (∀ cw cw' : List Byte, cw.length = cw'.length → ∀ j, j < 2 →
    byteAt (rsParity fieldProduct (List.zipWith (· ^^^ ·) cw cw')) j =
      byteAt (rsParity fieldProduct cw) j ^^^ byteAt (rsParity fieldProduct cw') j) ∧
  (∀ cw : List Byte, rsParity fieldProduct (0 :: cw) = rsParity fieldProduct cw) ∧
  (∀ c : Byte, rsParity fieldProduct [c] = #v[fieldProduct 0x03 c, fieldProduct 0x20 c])

/-- R136: PARRD reads the parity codewords, PAR[0] in bits [15:8], or fails with E_NOPAR; right after a completing RSGEN
it reads what RSGEN left in RESULT. -/
def Obligations.ParrdReadsTheParity : Prop :=
  SpelledN 0x14 .parrd ∧
  ∀ s : State,
    (s.parValid = false → Raises .parrd s .nopar) ∧
    (s.parValid = true →
      exec .parrd s = .next { s with result := (byteAt s.par 0 ++ byteAt s.par 1).zeroExtend 32, lasterr := .ok }) ∧
    (∀ t, exec .rsgen s = .next t → t.lasterr = .ok → exec .parrd t = .next t)

/-! ## Matrix constructor -/

/-- R161: a cell is a data cell when none of the four conditions holds; the data cells are rows 1 to 8 in columns 9 and 10 and rows 9 and 10 in columns 1 to 10, 36 in all; the 85
others are 49 finder, 15 separator, 6 timing and 15 format cells. -/
def Obligations.ThirtySixDataCells : Prop :=
  (∀ r c, r ≤ 10 → c ≤ 10 → (isData r c = false ↔
    (r ≤ 6 ∧ c ≤ 6) ∨ ((r = 7 ∧ c ≤ 7) ∨ (c = 7 ∧ r ≤ 7)) ∨ (r = 0 ∨ c = 0) ∨
      ((r = 8 ∧ 1 ≤ c ∧ c ≤ 8) ∨ (c = 8 ∧ 1 ≤ r ∧ r ≤ 7)))) ∧
  (∀ r c, r ≤ 10 → c ≤ 10 →
    isData r c = decide ((1 ≤ r ∧ r ≤ 8 ∧ 9 ≤ c) ∨ (9 ≤ r ∧ 1 ≤ c))) ∧
  ((square 11).filter fun p => isData p.1 p.2).length = 36 ∧
  ((square 11).filter fun p => decide (p.1 ≤ 6 ∧ p.2 ≤ 6)).length = 49 ∧
  ((square 11).filter fun p => decide ((p.1 = 7 ∧ p.2 ≤ 7) ∨ (p.2 = 7 ∧ p.1 ≤ 7))).length = 15 ∧
  ((square 11).filter fun p => decide ((p.1 = 0 ∧ 8 ≤ p.2) ∨ (p.2 = 0 ∧ 8 ≤ p.1))).length = 6 ∧
  ((square 11).filter fun p => isFormatCell p.1 p.2).length = 15

/-- R162: CLASS gives 1 for a data cell and 0 for a reserved one, at any PHASE; a coordinate above 10 is E_RANGE. -/
def Obligations.ClassReturnsThePredicate : Prop :=
  SpelledB16 0x20 .classify ∧
  ∀ (a b : Byte) (s : State),
    (a.toNat > 10 ∨ b.toNat > 10 → Raises (.classify a b) s .range) ∧
    (a.toNat ≤ 10 → b.toNat ≤ 10 →
      exec (.classify a b) s =
        .next { s with result := if isData a.toNat b.toNat then 1 else 0, lasterr := .ok })

/-- R168: the placement order, cell by cell as the spec lists it. -/
def Obligations.PlacementOrderIsTheListedOne : Prop :=
  order =
    [(10, 10), (10, 9), (9, 10), (9, 9), (8, 10), (8, 9), (7, 10), (7, 9), (6, 10), (6, 9), (5, 10), (5, 9),
     (4, 10), (4, 9), (3, 10), (3, 9), (2, 10), (2, 9), (1, 10), (1, 9), (10, 8), (10, 7), (9, 8), (9, 7),
     (10, 6), (10, 5), (9, 6), (9, 5), (10, 4), (10, 3), (9, 4), (9, 3), (10, 2), (10, 1), (9, 2), (9, 1)]

/-- R163: MCLR completes at any PHASE with every cell 0 and PHASE = 0, and writes nothing else but LASTERR. -/
def Obligations.MclrClearsTheMatrix : Prop :=
  SpelledN 0x21 .mclr ∧
  ∀ s : State, ∃ t, exec .mclr s = .next t ∧
    t = { s with matrix := t.matrix, phase := .cleared, lasterr := .ok } ∧
    ∀ r c, r ≤ 10 → c ≤ 10 → cell t.matrix r c = false

/-- R164: MFIND needs PHASE = 0; it sets the 7×7 border ring and the inner 3×3 square and leaves every other cell. -/
def Obligations.MfindDrawsTheFinder : Prop :=
  SpelledN 0x22 .mfind ∧
  (∀ s : State, s.phase ≠ .cleared → Raises .mfind s .seq) ∧
  (∀ s : State, s.phase = .cleared → ∃ t, exec .mfind s = .next t ∧
    t = { s with matrix := t.matrix, phase := .finder, lasterr := .ok } ∧
    ∀ r c, r ≤ 10 → c ≤ 10 →
      cell t.matrix r c =
        if r ≤ 6 ∧ c ≤ 6 ∧ (r = 0 ∨ r = 6 ∨ c = 0 ∨ c = 6 ∨ (2 ≤ r ∧ r ≤ 4 ∧ 2 ≤ c ∧ c ≤ 4)) then true
        else cell s.matrix r c)

/-- R165: MTIME needs PHASE = 1; it writes indices 7 to 10 of row 0 and column 0, dark at even indices, and leaves every
other cell. -/
def Obligations.MtimeDrawsTheTimingPattern : Prop :=
  SpelledN 0x23 .mtime ∧
  (∀ s : State, s.phase ≠ .finder → Raises .mtime s .seq) ∧
  (∀ s : State, s.phase = .finder → ∃ t, exec .mtime s = .next t ∧
    t = { s with matrix := t.matrix, phase := .timing, lasterr := .ok } ∧
    (∀ i, 7 ≤ i → i ≤ 10 → cell t.matrix 0 i = decide (i % 2 = 0) ∧ cell t.matrix i 0 = decide (i % 2 = 0)) ∧
    ∀ r c, r ≤ 10 → c ≤ 10 → ¬ (r = 0 ∧ 7 ≤ c) → ¬ (c = 0 ∧ 7 ≤ r) → cell t.matrix r c = cell s.matrix r c)

/-- R166, R167: MFMT needs PHASE = 2; for every FORMAT_WORD and every FORMAT_MAP of R166 it writes bit 14 - k of
FORMAT_WORD at the cell of position k, and leaves every other cell. -/
def Obligations.MfmtCopiesTheFormatWord : Prop :=
  SpelledN 0x24 .mfmt ∧
  (∀ s : State, s.phase ≠ .timing → Raises .mfmt s .seq) ∧
  (∀ s : State, s.phase = .timing → FormatMapOk s.formatMap → ∃ t, exec .mfmt s = .next t ∧
    t = { s with matrix := t.matrix, phase := .format, lasterr := .ok } ∧
    (∀ k, k < 15 →
      cell t.matrix (entry (0, 0) s.formatMap k).1 (entry (0, 0) s.formatMap k).2 = s.formatWord.getLsbD (14 - k)) ∧
    ∀ r c, r ≤ 10 → c ≤ 10 → (r, c) ∉ s.formatMap.toList → cell t.matrix r c = cell s.matrix r c)

/-- R169, R170, R171: MPLACE's checks in their order; it writes bit k of the placement sequence (the message bits, then
PAR[0] and PAR[1], each most significant bit first) at `ORDER[k]` for the first min(MSGLEN + 16, 36) positions, leaves
every other cell, and reports the counts in RESULT and TRUNC. MSGLEN is at most 32 in every state a run reaches
(EveryStepKeepsTheInvariant); the count fields are 16 bits wide. -/
def Obligations.MplacePlacesThePlacementSequence : Prop :=
  SpelledN 0x25 .mplace ∧
  ∀ s : State,
    (s.phase ≠ .format → Raises .mplace s .seq) ∧
    (s.phase = .format → s.parValid = false → Raises .mplace s .nopar) ∧
    (s.phase = .format → s.parValid = true → s.strict = true → s.msglen + 16 > 36 → Raises .mplace s .capacity) ∧
    (s.phase = .format → s.parValid = true → ¬ (s.strict = true ∧ s.msglen + 16 > 36) → s.msglen ≤ 32 →
      ∃ t, exec .mplace s = .next t ∧
        t = { s with
          matrix := t.matrix, phase := .placed, trunc := decide (s.msglen + 16 > 36), result := t.result,
          lasterr := .ok } ∧
        t.result.toNat = 65536 * (s.msglen + 16 - min (s.msglen + 16) 36) + min (s.msglen + 16) 36 ∧
        (∀ k, k < min (s.msglen + 16) 36 →
          cell t.matrix (order.getD k (0, 0)).1 (order.getD k (0, 0)).2 =
            if k < s.msglen then bitAt s.msg k
            else if k < s.msglen + 8 then (byteAt s.par 0).getLsbD (7 - (k - s.msglen))
            else (byteAt s.par 1).getLsbD (7 - (k - s.msglen - 8))) ∧
        ∀ r c, r ≤ 10 → c ≤ 10 → (r, c) ∉ order.take (min (s.msglen + 16) 36) →
          cell t.matrix r c = cell s.matrix r c)

/-- R172: MMASK needs PHASE = 4; it toggles exactly the data cells with an even sum of row and column. -/
def Obligations.MmaskTogglesTheEvenDataCells : Prop :=
  SpelledN 0x26 .mmask ∧
  (∀ s : State, s.phase ≠ .placed → Raises .mmask s .seq) ∧
  (∀ s : State, s.phase = .placed → ∃ t, exec .mmask s = .next t ∧
    t = { s with matrix := t.matrix, phase := .done, lasterr := .ok } ∧
    ∀ r c, r ≤ 10 → c ≤ 10 →
      cell t.matrix r c = (cell s.matrix r c ^^ (isData r c && decide ((r + c) % 2 = 0)))) ∧
  ((square 11).filter fun p => isData p.1 p.2 && decide ((p.1 + p.2) % 2 = 0)).length = 18

/-- R173: MRDROW's checks in their order; it returns column c in bit c, and bits [31:11] are 0. -/
def Obligations.MrdrowReadsOneRow : Prop :=
  SpelledB8 0x28 .mrdrow ∧
  ∀ (b : Byte) (s : State),
    (b.toNat > 10 → Raises (.mrdrow b) s .range) ∧
    (b.toNat ≤ 10 → s.phase ≠ .done → Raises (.mrdrow b) s .notready) ∧
    (b.toNat ≤ 10 → s.phase = .done → ∃ t, exec (.mrdrow b) s = .next t ∧
      t = { s with result := t.result, lasterr := .ok } ∧
      (∀ c, c ≤ 10 → t.result.getLsbD c = cell s.matrix b.toNat c) ∧
      (∀ c, 11 ≤ c → t.result.getLsbD c = false))

/-- R174: MBUILD checks PAR_VALID, then capacity, before any change; else it completes, at any PHASE, with PHASE = 5,
in the state that MCLR, MFIND, MTIME, MFMT, MPLACE and MMASK one by one leave. -/
def Obligations.MbuildRunsThePhasesInOrder : Prop :=
  SpelledN 0x27 .mbuild ∧
  ∀ s : State,
    (s.parValid = false → Raises .mbuild s .nopar) ∧
    (s.parValid = true → s.strict = true → s.msglen + 16 > 36 → Raises .mbuild s .capacity) ∧
    (s.parValid = true → ¬ (s.strict = true ∧ s.msglen + 16 > 36) →
      ∃ t, exec .mbuild s = .next t ∧
        execAll [.mclr, .mfind, .mtime, .mfmt, .mplace, .mmask] s = .next t ∧
        t = { s with
          matrix := t.matrix, phase := .done, trunc := decide (s.msglen + 16 > 36), result := t.result,
          lasterr := .ok })

/-- R175: a step from a state that has the invariant to one with PHASE = 5 leaves a matrix whose reserved cells are the
fixed template's for the block's FORMAT_WORD and FORMAT_MAP, whose four inner finder cells are light and whose timing
cells alternate. MPLACE and MMASK write no reserved cell, and what MBUILD leaves in M is a function of
FORMAT_WORD, FORMAT_MAP, the message and PAR. -/
def Obligations.FinishedMatrixShowsTheFixedPatterns : Prop :=
  (∀ s t : State, Inv s → step s = .next t → t.phase = .done →
    (∀ r c, r ≤ 10 → c ≤ 10 → isData r c = false →
      cell t.matrix r c = templateCell t.formatWord t.formatMap r c) ∧
    (cell t.matrix 1 1 = false ∧ cell t.matrix 1 5 = false ∧ cell t.matrix 5 1 = false ∧ cell t.matrix 5 5 = false) ∧
    (∀ i, 7 ≤ i → i ≤ 10 → cell t.matrix 0 i = decide (i % 2 = 0) ∧ cell t.matrix i 0 = decide (i % 2 = 0)) ∧
    (∀ k, k < 15 →
      cell t.matrix (entry (0, 0) t.formatMap k).1 (entry (0, 0) t.formatMap k).2 = t.formatWord.getLsbD (14 - k))) ∧
  (∀ (i : Instr) (s t : State), i = .mplace ∨ i = .mmask → exec i s = .next t →
    ∀ r c, r ≤ 10 → c ≤ 10 → isData r c = false → cell t.matrix r c = cell s.matrix r c) ∧
  (∀ s s' t t' : State, s.formatWord = s'.formatWord → s.formatMap = s'.formatMap → s.msglen = s'.msglen →
    (∀ k, k < s.msglen → bitAt s.msg k = bitAt s'.msg k) → s.par = s'.par →
    exec .mbuild s = .next t → exec .mbuild s' = .next t' → t.lasterr = .ok → t'.lasterr = .ok →
    t.matrix = t'.matrix)

/-- R166, R176: the rows of the fixed template for the DEFAULT FORMAT_WORD and FORMAT_MAP, as the matrix after MCLR,
MFIND, MTIME and MFMT has them, from any state with those parameters. -/
def Obligations.DefaultTemplateHasTheListedRows : Prop :=
  ∀ s : State, s.formatWord = 0x4445 → s.formatMap = Config.formatMapDefault →
    ∃ t, execAll [.mclr, .mfind, .mtime, .mfmt] s = .next t ∧
      (List.range 11).map (rowWord t.matrix) =
        [0x57F, 0x141, 0x05D, 0x15D, 0x05D, 0x041, 0x07F, 0x100, 0x023, 0x000, 0x001]

/-! ## Control -/

/-- R200: NOP writes LASTERR and nothing else. -/
def Obligations.NopOnlyClearsLasterr : Prop :=
  SpelledN 0x00 .nop ∧ decode 0x00000000 = .ok .nop ∧
  ∀ s : State, exec .nop s = .next { s with lasterr := .ok }

/-- R201: CTLWR writes STRICT from bit 0, reads back in STATUS[10], and any word with another bit of w[23:1] set is
illegal. -/
def Obligations.CtlwrWritesStrict : Prop :=
  (∀ w : Word, fieldOp w = 0x30 →
    (w.extractLsb' 1 23 = 0 → decode w = .ok (.ctlwr (w.extractLsb' 0 8))) ∧
    (w.extractLsb' 1 23 ≠ 0 → IllegalWord w)) ∧
  ∀ (b : Byte) (s : State), (Instr.ctlwr b).wellFormed = true →
    ∃ t, exec (.ctlwr b) s = .next t ∧ t = { s with strict := b.getLsbD 0, lasterr := .ok } ∧
      (statusWord t).getLsbD 10 = b.getLsbD 0

/-- R202: STCLR clears STICKY and TRUNC and touches nothing else but LASTERR. -/
def Obligations.StclrClearsStickyAndTrunc : Prop :=
  SpelledN 0x31 .stclr ∧
  ∀ s : State, exec .stclr s = .next { s with sticky := false, trunc := false, lasterr := .ok }

/-! ## Port, status and reset -/

/-- R24: where each field stands in STATUS, that the reserved bits read 0, that a host write to STATUS is ignored (R52)
and the flags change only through commands (R57 for the reads) and reset, and the reset value of the fields. That the
ignored write moves the host's position is the model's (log entry 7). -/
def Obligations.StatusWordLayout : Prop :=
  statusWord State.reset = 0x00007000 ∧
  (∀ (s : State) (d : Word), s.prog[s.pos]? = some (.busWrite 4 (Config.portBase + 8) d) →
    step s = .next { s with pos := s.pos + 1 }) ∧
  (∀ (s t : State) (op : HostOp), s.prog[s.pos]? = some op → step s = .next t → (∀ w, op ≠ .issue w) →
    (∀ d, op ≠ .busWrite 4 Config.portBase d) → op ≠ .reset → statusWord t = statusWord s) ∧
  ∀ s : State,
    (statusWord s).extractLsb' 0 4 = s.lasterr.bits ∧
    (statusWord s).getLsbD 4 = s.sticky ∧
    (statusWord s).getLsbD 5 = s.trunc ∧
    (statusWord s).extractLsb' 6 2 = 0 ∧
    (statusWord s).getLsbD 8 = s.tblValid ∧
    (statusWord s).getLsbD 9 = s.parValid ∧
    (statusWord s).getLsbD 10 = s.strict ∧
    (statusWord s).getLsbD 11 = false ∧
    (statusWord s).extractLsb' 12 3 = s.phase.bits ∧
    (statusWord s).getLsbD 15 = false ∧
    (s.msglen ≤ 32 → ((statusWord s).extractLsb' 16 6).toNat = s.msglen) ∧
    (statusWord s).extractLsb' 22 10 = 0

/-- R51, R57: `readResult()` and `readStatus()` hand RESULT and STATUS to the host and change nothing of the block, so a
second read with no command between returns the same value. (How the host's side records it, the position and the list
of readings, is log entry 7.) -/
def Obligations.PortReadsHaveNoSideEffect : Prop :=
  ∀ s : State,
    (s.prog[s.pos]? = some .readResult →
      step s = .next { s with pos := s.pos + 1, reads := s.reads ++ [s.result] }) ∧
    (s.prog[s.pos]? = some .readStatus →
      step s = .next { s with pos := s.pos + 1, reads := s.reads ++ [statusWord s] }) ∧
    (∀ t, step s = .next t → s.prog[s.pos]? = some .readResult ∨ s.prog[s.pos]? = some .readStatus →
      readResult t = readResult s ∧ readStatus t = readStatus s)

/-- The bus window, wherever PORT_BASE is. Whole aligned words inside it act as the table of R52 says; another width or
alignment has no step (R53). Which of the two refusals an access gets that has both faults, and that a wide access which
starts inside the window and reaches past it counts as one of another width, is the model's choice (log entry 4); so is
how the host's side records an access, the position and the list of readings (log entry 7). -/
def Obligations.BusWindowIsTheAbstractPort : Prop :=
  ∀ s : State,
    (∀ d : Word, s.prog[s.pos]? = some (.busWrite 4 Config.portBase d) →
      step s = issue d { s with pos := s.pos + 1 }) ∧
    (∀ (d : Word) (a : Nat), a = 4 ∨ a = 8 ∨ a = 12 → s.prog[s.pos]? = some (.busWrite 4 (Config.portBase + a) d) →
      step s = .next { s with pos := s.pos + 1 }) ∧
    (s.prog[s.pos]? = some (.busRead 4 (Config.portBase + 4)) →
      step s = .next { s with pos := s.pos + 1, reads := s.reads ++ [s.result] }) ∧
    (s.prog[s.pos]? = some (.busRead 4 (Config.portBase + 8)) →
      step s = .next { s with pos := s.pos + 1, reads := s.reads ++ [statusWord s] }) ∧
    (∀ a : Nat, a = 0 ∨ a = 12 → s.prog[s.pos]? = some (.busRead 4 (Config.portBase + a)) →
      step s = .next { s with pos := s.pos + 1, reads := s.reads ++ [0] }) ∧
    (∀ (n a : Nat) (d : Word), a < 16 → n ≠ 4 →
      s.prog[s.pos]? = some (.busWrite n (Config.portBase + a) d) ∨
        s.prog[s.pos]? = some (.busRead n (Config.portBase + a)) →
      step s = .refused .notWordAccess) ∧
    (∀ (a : Nat) (d : Word), a < 16 → a % 4 ≠ 0 →
      s.prog[s.pos]? = some (.busWrite 4 (Config.portBase + a) d) ∨
        s.prog[s.pos]? = some (.busRead 4 (Config.portBase + a)) →
      step s = .refused .unalignedAccess)

/-- The model's choice of log entry 4: an access whose first address is outside the 16-byte window of R52 is no access of
this block (R64), also where it reaches into the window from below, and the machine stops with a fault of its own
name. -/
def Obligations.AccessOutsideTheWindowFaults : Prop :=
  ∀ (s : State) (n a : Nat) (d : Word), a < Config.portBase ∨ Config.portBase + 16 ≤ a →
    s.prog[s.pos]? = some (.busWrite n a d) ∨ s.prog[s.pos]? = some (.busRead n a) →
    step s = .fault .outsidePort

/-- R260, R261: the reset event is one step; it leaves every element the spec gives a reset value at that value, STATUS
reads 0x00007000. That State.reset has no program is the model's choice (log entry 6), and so is that it holds the
parameters at their defaults and that the reset event keeps them (log entry 2). (EXP, LOG, PAR, M and MSG have no reset
value in the spec: this says nothing of them, log entry 1.) -/
def Obligations.ResetEventSetsTheResetValues : Prop :=
  (statusWord State.reset = 0x00007000 ∧ State.reset.result = 0 ∧ State.reset.prog = [] ∧
    State.reset.formatWord = 0x4445 ∧ State.reset.formatMap = Config.formatMapDefault) ∧
  ∀ s : State, s.prog[s.pos]? = some .reset → ∃ t, step s = .next t ∧
    t.result = 0 ∧ t.lasterr = .ok ∧ t.sticky = false ∧ t.trunc = false ∧ t.tblValid = false ∧ t.parValid = false ∧
    t.phase = .noMatrix ∧ t.strict = false ∧ t.msglen = 0 ∧ statusWord t = 0x00007000 ∧
    t.formatWord = s.formatWord ∧ t.formatMap = s.formatMap

/-! ## The host's side -/

/-- R211 to R216: which strings the host encodes, and the length and the count field of the result. -/
def Obligations.HostBitLengths : Prop :=
  (∀ cs : List Char, (∃ bs, hostBits cs = .ok bs) ↔
    1 ≤ cs.length ∧ cs.length ≤ 7 ∧ ∀ c ∈ cs, 48 ≤ c.toNat ∧ c.toNat ≤ 57) ∧
  (∀ (cs : List Char) (bs : List Bool), hostBits cs = .ok bs →
    bs.length = (if cs.length ≤ 4 then 20 else if cs.length = 5 then 24 else if cs.length = 6 then 28 else 32) ∧
    bs.take 3 = [cs.length.testBit 2, cs.length.testBit 1, cs.length.testBit 0])

/-- R82, R133: the commands of MSGLOAD load a bit string of 1 to 32 bits as the whole message, from any state. -/
def Obligations.MsgloadLoadsTheBitString : Prop :=
  ∀ (bs : List Bool) (s : State), 1 ≤ bs.length → bs.length ≤ 32 →
    ∃ t, execAll (msgload bs) s = .next t ∧
      t = { s with msg := t.msg, msglen := bs.length, parValid := false, lasterr := .ok } ∧
      ∀ k, k < bs.length → bitAt t.msg k = bs.getD k false

/-- R219, R233: from every state that has the invariant, in non-strict mode the host's encode procedure on every valid
digit string completes and hands back the eleven rows of a finished matrix, and so it does in strict mode on a string of
1 to 4 digits; in strict mode a string of 5 to 7 digits fails with E_CAPACITY. That the host stops at the first command
that fails is the model's choice (log entry 11). -/
def Obligations.EncodeProcedureBuildsTheSymbol : Prop :=
  ∀ (cs : List Char) (bs : List Bool) (s : State), hostBits cs = .ok bs → Inv s →
    (s.strict = false ∨ cs.length ≤ 4 →
      ∃ rows t, hostEncode cs s = .ok (rows, t) ∧ rows.length = 11 ∧ t.phase = .done ∧
        t.trunc = decide (bs.length > 20) ∧
        t.par = rsParity fieldProduct (pack t.msg bs.length) ∧
        (∀ k, k < bs.length → bitAt t.msg k = bs.getD k false) ∧
        (∀ r c, r ≤ 10 → c ≤ 10 → (rows.getD r 0).getLsbD c = cell t.matrix r c) ∧
        (∀ k, k < min (bs.length + 16) 36 →
          cell t.matrix (order.getD k (0, 0)).1 (order.getD k (0, 0)).2 =
            ((if k < bs.length then bs.getD k false
              else if k < bs.length + 8 then (byteAt t.par 0).getLsbD (7 - (k - bs.length))
              else (byteAt t.par 1).getLsbD (7 - (k - bs.length - 8))) ^^
            decide (((order.getD k (0, 0)).1 + (order.getD k (0, 0)).2) % 2 = 0)))) ∧
    (s.strict = true → 5 ≤ cs.length → hostEncode cs s = .error (.commandFailed 10))

/-- R212 to R215: what every bit of an encoded string is. The count field, then for each group of 3 digits (the last may
be shorter) its decimal value in 10, 7 or 4 bits, most significant bit first, then a terminator of three zeros and zero
padding to `max(20, 4·ceil(L/4))` bits. -/
def Obligations.HostBitsSpellTheDigits : Prop :=
  ∀ (cs : List Char) (bs : List Bool), hostBits cs = .ok bs →
    bs.length = max 20 (4 * ((3 + groupBits cs.length + 3 + 3) / 4)) ∧
    chunkValue (bs.take 3) = cs.length ∧
    (∀ g, 3 * g < cs.length →
      chunkValue ((bs.drop (3 + 10 * g)).take
          (if cs.length - 3 * g = 1 then 4 else if cs.length - 3 * g = 2 then 7 else 10)) =
        decimalValue ((cs.drop (3 * g)).take 3)) ∧
    (∀ k, 3 + groupBits cs.length ≤ k → k < bs.length → bs.getD k false = false)
end

