-- ==== Sys2Proof/Laws/State.lean ====
section
/-! SUPPORT. One lemma per field per update of the state, true by rfl, so that no proof unfolds a record update. -/

namespace Sys2Proof.Machine

/-! ### State.fail -/

@[simp] theorem State.fail_exp (s : State) (e : ErrCode) : (s.fail e).exp = s.exp := rfl
@[simp] theorem State.fail_log (s : State) (e : ErrCode) : (s.fail e).log = s.log := rfl
@[simp] theorem State.fail_tblValid (s : State) (e : ErrCode) : (s.fail e).tblValid = s.tblValid := rfl
@[simp] theorem State.fail_msg (s : State) (e : ErrCode) : (s.fail e).msg = s.msg := rfl
@[simp] theorem State.fail_msglen (s : State) (e : ErrCode) : (s.fail e).msglen = s.msglen := rfl
@[simp] theorem State.fail_par (s : State) (e : ErrCode) : (s.fail e).par = s.par := rfl
@[simp] theorem State.fail_parValid (s : State) (e : ErrCode) : (s.fail e).parValid = s.parValid := rfl
@[simp] theorem State.fail_matrix (s : State) (e : ErrCode) : (s.fail e).matrix = s.matrix := rfl
@[simp] theorem State.fail_phase (s : State) (e : ErrCode) : (s.fail e).phase = s.phase := rfl
@[simp] theorem State.fail_strict (s : State) (e : ErrCode) : (s.fail e).strict = s.strict := rfl
@[simp] theorem State.fail_trunc (s : State) (e : ErrCode) : (s.fail e).trunc = s.trunc := rfl
@[simp] theorem State.fail_result (s : State) (e : ErrCode) : (s.fail e).result = s.result := rfl
@[simp] theorem State.fail_lasterr (s : State) (e : ErrCode) : (s.fail e).lasterr = e := rfl
@[simp] theorem State.fail_sticky (s : State) (e : ErrCode) : (s.fail e).sticky = true := rfl
@[simp] theorem State.fail_formatWord (s : State) (e : ErrCode) : (s.fail e).formatWord = s.formatWord := rfl
@[simp] theorem State.fail_formatMap (s : State) (e : ErrCode) : (s.fail e).formatMap = s.formatMap := rfl
@[simp] theorem State.fail_prog (s : State) (e : ErrCode) : (s.fail e).prog = s.prog := rfl
@[simp] theorem State.fail_pos (s : State) (e : ErrCode) : (s.fail e).pos = s.pos := rfl
@[simp] theorem State.fail_reads (s : State) (e : ErrCode) : (s.fail e).reads = s.reads := rfl

/-! ### State.succeed -/

@[simp] theorem State.succeed_exp (s : State) : (s.succeed).exp = s.exp := rfl
@[simp] theorem State.succeed_log (s : State) : (s.succeed).log = s.log := rfl
@[simp] theorem State.succeed_tblValid (s : State) : (s.succeed).tblValid = s.tblValid := rfl
@[simp] theorem State.succeed_msg (s : State) : (s.succeed).msg = s.msg := rfl
@[simp] theorem State.succeed_msglen (s : State) : (s.succeed).msglen = s.msglen := rfl
@[simp] theorem State.succeed_par (s : State) : (s.succeed).par = s.par := rfl
@[simp] theorem State.succeed_parValid (s : State) : (s.succeed).parValid = s.parValid := rfl
@[simp] theorem State.succeed_matrix (s : State) : (s.succeed).matrix = s.matrix := rfl
@[simp] theorem State.succeed_phase (s : State) : (s.succeed).phase = s.phase := rfl
@[simp] theorem State.succeed_strict (s : State) : (s.succeed).strict = s.strict := rfl
@[simp] theorem State.succeed_trunc (s : State) : (s.succeed).trunc = s.trunc := rfl
@[simp] theorem State.succeed_result (s : State) : (s.succeed).result = s.result := rfl
@[simp] theorem State.succeed_lasterr (s : State) : (s.succeed).lasterr = .ok := rfl
@[simp] theorem State.succeed_sticky (s : State) : (s.succeed).sticky = s.sticky := rfl
@[simp] theorem State.succeed_formatWord (s : State) : (s.succeed).formatWord = s.formatWord := rfl
@[simp] theorem State.succeed_formatMap (s : State) : (s.succeed).formatMap = s.formatMap := rfl
@[simp] theorem State.succeed_prog (s : State) : (s.succeed).prog = s.prog := rfl
@[simp] theorem State.succeed_pos (s : State) : (s.succeed).pos = s.pos := rfl
@[simp] theorem State.succeed_reads (s : State) : (s.succeed).reads = s.reads := rfl

/-! ### State.setResult -/

@[simp] theorem State.setResult_exp (s : State) (v : Word) : (s.setResult v).exp = s.exp := rfl
@[simp] theorem State.setResult_log (s : State) (v : Word) : (s.setResult v).log = s.log := rfl
@[simp] theorem State.setResult_tblValid (s : State) (v : Word) : (s.setResult v).tblValid = s.tblValid := rfl
@[simp] theorem State.setResult_msg (s : State) (v : Word) : (s.setResult v).msg = s.msg := rfl
@[simp] theorem State.setResult_msglen (s : State) (v : Word) : (s.setResult v).msglen = s.msglen := rfl
@[simp] theorem State.setResult_par (s : State) (v : Word) : (s.setResult v).par = s.par := rfl
@[simp] theorem State.setResult_parValid (s : State) (v : Word) : (s.setResult v).parValid = s.parValid := rfl
@[simp] theorem State.setResult_matrix (s : State) (v : Word) : (s.setResult v).matrix = s.matrix := rfl
@[simp] theorem State.setResult_phase (s : State) (v : Word) : (s.setResult v).phase = s.phase := rfl
@[simp] theorem State.setResult_strict (s : State) (v : Word) : (s.setResult v).strict = s.strict := rfl
@[simp] theorem State.setResult_trunc (s : State) (v : Word) : (s.setResult v).trunc = s.trunc := rfl
@[simp] theorem State.setResult_result (s : State) (v : Word) : (s.setResult v).result = v := rfl
@[simp] theorem State.setResult_lasterr (s : State) (v : Word) : (s.setResult v).lasterr = s.lasterr := rfl
@[simp] theorem State.setResult_sticky (s : State) (v : Word) : (s.setResult v).sticky = s.sticky := rfl
@[simp] theorem State.setResult_formatWord (s : State) (v : Word) : (s.setResult v).formatWord = s.formatWord := rfl
@[simp] theorem State.setResult_formatMap (s : State) (v : Word) : (s.setResult v).formatMap = s.formatMap := rfl
@[simp] theorem State.setResult_prog (s : State) (v : Word) : (s.setResult v).prog = s.prog := rfl
@[simp] theorem State.setResult_pos (s : State) (v : Word) : (s.setResult v).pos = s.pos := rfl
@[simp] theorem State.setResult_reads (s : State) (v : Word) : (s.setResult v).reads = s.reads := rfl

/-! ### State.setTables -/

@[simp] theorem State.setTables_exp (s : State) (e l : Vector Byte 256) : (s.setTables e l).exp = e := rfl
@[simp] theorem State.setTables_log (s : State) (e l : Vector Byte 256) : (s.setTables e l).log = l := rfl
@[simp] theorem State.setTables_tblValid (s : State) (e l : Vector Byte 256) : (s.setTables e l).tblValid = true := rfl
@[simp] theorem State.setTables_msg (s : State) (e l : Vector Byte 256) : (s.setTables e l).msg = s.msg := rfl
@[simp] theorem State.setTables_msglen (s : State) (e l : Vector Byte 256) : (s.setTables e l).msglen = s.msglen := rfl
@[simp] theorem State.setTables_par (s : State) (e l : Vector Byte 256) : (s.setTables e l).par = s.par := rfl
@[simp] theorem State.setTables_parValid (s : State) (e l : Vector Byte 256) : (s.setTables e l).parValid = s.parValid := rfl
@[simp] theorem State.setTables_matrix (s : State) (e l : Vector Byte 256) : (s.setTables e l).matrix = s.matrix := rfl
@[simp] theorem State.setTables_phase (s : State) (e l : Vector Byte 256) : (s.setTables e l).phase = s.phase := rfl
@[simp] theorem State.setTables_strict (s : State) (e l : Vector Byte 256) : (s.setTables e l).strict = s.strict := rfl
@[simp] theorem State.setTables_trunc (s : State) (e l : Vector Byte 256) : (s.setTables e l).trunc = s.trunc := rfl
@[simp] theorem State.setTables_result (s : State) (e l : Vector Byte 256) : (s.setTables e l).result = s.result := rfl
@[simp] theorem State.setTables_lasterr (s : State) (e l : Vector Byte 256) : (s.setTables e l).lasterr = s.lasterr := rfl
@[simp] theorem State.setTables_sticky (s : State) (e l : Vector Byte 256) : (s.setTables e l).sticky = s.sticky := rfl
@[simp] theorem State.setTables_formatWord (s : State) (e l : Vector Byte 256) : (s.setTables e l).formatWord = s.formatWord := rfl
@[simp] theorem State.setTables_formatMap (s : State) (e l : Vector Byte 256) : (s.setTables e l).formatMap = s.formatMap := rfl
@[simp] theorem State.setTables_prog (s : State) (e l : Vector Byte 256) : (s.setTables e l).prog = s.prog := rfl
@[simp] theorem State.setTables_pos (s : State) (e l : Vector Byte 256) : (s.setTables e l).pos = s.pos := rfl
@[simp] theorem State.setTables_reads (s : State) (e l : Vector Byte 256) : (s.setTables e l).reads = s.reads := rfl

/-! ### State.setMsglen -/

@[simp] theorem State.setMsglen_exp (s : State) (n : Nat) : (s.setMsglen n).exp = s.exp := rfl
@[simp] theorem State.setMsglen_log (s : State) (n : Nat) : (s.setMsglen n).log = s.log := rfl
@[simp] theorem State.setMsglen_tblValid (s : State) (n : Nat) : (s.setMsglen n).tblValid = s.tblValid := rfl
@[simp] theorem State.setMsglen_msg (s : State) (n : Nat) : (s.setMsglen n).msg = s.msg := rfl
@[simp] theorem State.setMsglen_msglen (s : State) (n : Nat) : (s.setMsglen n).msglen = n := rfl
@[simp] theorem State.setMsglen_par (s : State) (n : Nat) : (s.setMsglen n).par = s.par := rfl
@[simp] theorem State.setMsglen_parValid (s : State) (n : Nat) : (s.setMsglen n).parValid = false := rfl
@[simp] theorem State.setMsglen_matrix (s : State) (n : Nat) : (s.setMsglen n).matrix = s.matrix := rfl
@[simp] theorem State.setMsglen_phase (s : State) (n : Nat) : (s.setMsglen n).phase = s.phase := rfl
@[simp] theorem State.setMsglen_strict (s : State) (n : Nat) : (s.setMsglen n).strict = s.strict := rfl
@[simp] theorem State.setMsglen_trunc (s : State) (n : Nat) : (s.setMsglen n).trunc = s.trunc := rfl
@[simp] theorem State.setMsglen_result (s : State) (n : Nat) : (s.setMsglen n).result = s.result := rfl
@[simp] theorem State.setMsglen_lasterr (s : State) (n : Nat) : (s.setMsglen n).lasterr = s.lasterr := rfl
@[simp] theorem State.setMsglen_sticky (s : State) (n : Nat) : (s.setMsglen n).sticky = s.sticky := rfl
@[simp] theorem State.setMsglen_formatWord (s : State) (n : Nat) : (s.setMsglen n).formatWord = s.formatWord := rfl
@[simp] theorem State.setMsglen_formatMap (s : State) (n : Nat) : (s.setMsglen n).formatMap = s.formatMap := rfl
@[simp] theorem State.setMsglen_prog (s : State) (n : Nat) : (s.setMsglen n).prog = s.prog := rfl
@[simp] theorem State.setMsglen_pos (s : State) (n : Nat) : (s.setMsglen n).pos = s.pos := rfl
@[simp] theorem State.setMsglen_reads (s : State) (n : Nat) : (s.setMsglen n).reads = s.reads := rfl

/-! ### State.setMsg -/

@[simp] theorem State.setMsg_exp (s : State) (m : Vector Bool 32) (n : Nat) : (s.setMsg m n).exp = s.exp := rfl
@[simp] theorem State.setMsg_log (s : State) (m : Vector Bool 32) (n : Nat) : (s.setMsg m n).log = s.log := rfl
@[simp] theorem State.setMsg_tblValid (s : State) (m : Vector Bool 32) (n : Nat) : (s.setMsg m n).tblValid = s.tblValid := rfl
@[simp] theorem State.setMsg_msg (s : State) (m : Vector Bool 32) (n : Nat) : (s.setMsg m n).msg = m := rfl
@[simp] theorem State.setMsg_msglen (s : State) (m : Vector Bool 32) (n : Nat) : (s.setMsg m n).msglen = n := rfl
@[simp] theorem State.setMsg_par (s : State) (m : Vector Bool 32) (n : Nat) : (s.setMsg m n).par = s.par := rfl
@[simp] theorem State.setMsg_parValid (s : State) (m : Vector Bool 32) (n : Nat) : (s.setMsg m n).parValid = false := rfl
@[simp] theorem State.setMsg_matrix (s : State) (m : Vector Bool 32) (n : Nat) : (s.setMsg m n).matrix = s.matrix := rfl
@[simp] theorem State.setMsg_phase (s : State) (m : Vector Bool 32) (n : Nat) : (s.setMsg m n).phase = s.phase := rfl
@[simp] theorem State.setMsg_strict (s : State) (m : Vector Bool 32) (n : Nat) : (s.setMsg m n).strict = s.strict := rfl
@[simp] theorem State.setMsg_trunc (s : State) (m : Vector Bool 32) (n : Nat) : (s.setMsg m n).trunc = s.trunc := rfl
@[simp] theorem State.setMsg_result (s : State) (m : Vector Bool 32) (n : Nat) : (s.setMsg m n).result = s.result := rfl
@[simp] theorem State.setMsg_lasterr (s : State) (m : Vector Bool 32) (n : Nat) : (s.setMsg m n).lasterr = s.lasterr := rfl
@[simp] theorem State.setMsg_sticky (s : State) (m : Vector Bool 32) (n : Nat) : (s.setMsg m n).sticky = s.sticky := rfl
@[simp] theorem State.setMsg_formatWord (s : State) (m : Vector Bool 32) (n : Nat) : (s.setMsg m n).formatWord = s.formatWord := rfl
@[simp] theorem State.setMsg_formatMap (s : State) (m : Vector Bool 32) (n : Nat) : (s.setMsg m n).formatMap = s.formatMap := rfl
@[simp] theorem State.setMsg_prog (s : State) (m : Vector Bool 32) (n : Nat) : (s.setMsg m n).prog = s.prog := rfl
@[simp] theorem State.setMsg_pos (s : State) (m : Vector Bool 32) (n : Nat) : (s.setMsg m n).pos = s.pos := rfl
@[simp] theorem State.setMsg_reads (s : State) (m : Vector Bool 32) (n : Nat) : (s.setMsg m n).reads = s.reads := rfl

/-! ### State.setPar -/

@[simp] theorem State.setPar_exp (s : State) (p : Vector Byte 2) : (s.setPar p).exp = s.exp := rfl
@[simp] theorem State.setPar_log (s : State) (p : Vector Byte 2) : (s.setPar p).log = s.log := rfl
@[simp] theorem State.setPar_tblValid (s : State) (p : Vector Byte 2) : (s.setPar p).tblValid = s.tblValid := rfl
@[simp] theorem State.setPar_msg (s : State) (p : Vector Byte 2) : (s.setPar p).msg = s.msg := rfl
@[simp] theorem State.setPar_msglen (s : State) (p : Vector Byte 2) : (s.setPar p).msglen = s.msglen := rfl
@[simp] theorem State.setPar_par (s : State) (p : Vector Byte 2) : (s.setPar p).par = p := rfl
@[simp] theorem State.setPar_parValid (s : State) (p : Vector Byte 2) : (s.setPar p).parValid = true := rfl
@[simp] theorem State.setPar_matrix (s : State) (p : Vector Byte 2) : (s.setPar p).matrix = s.matrix := rfl
@[simp] theorem State.setPar_phase (s : State) (p : Vector Byte 2) : (s.setPar p).phase = s.phase := rfl
@[simp] theorem State.setPar_strict (s : State) (p : Vector Byte 2) : (s.setPar p).strict = s.strict := rfl
@[simp] theorem State.setPar_trunc (s : State) (p : Vector Byte 2) : (s.setPar p).trunc = s.trunc := rfl
@[simp] theorem State.setPar_result (s : State) (p : Vector Byte 2) : (s.setPar p).result = s.result := rfl
@[simp] theorem State.setPar_lasterr (s : State) (p : Vector Byte 2) : (s.setPar p).lasterr = s.lasterr := rfl
@[simp] theorem State.setPar_sticky (s : State) (p : Vector Byte 2) : (s.setPar p).sticky = s.sticky := rfl
@[simp] theorem State.setPar_formatWord (s : State) (p : Vector Byte 2) : (s.setPar p).formatWord = s.formatWord := rfl
@[simp] theorem State.setPar_formatMap (s : State) (p : Vector Byte 2) : (s.setPar p).formatMap = s.formatMap := rfl
@[simp] theorem State.setPar_prog (s : State) (p : Vector Byte 2) : (s.setPar p).prog = s.prog := rfl
@[simp] theorem State.setPar_pos (s : State) (p : Vector Byte 2) : (s.setPar p).pos = s.pos := rfl
@[simp] theorem State.setPar_reads (s : State) (p : Vector Byte 2) : (s.setPar p).reads = s.reads := rfl

/-! ### State.setMatrix -/

@[simp] theorem State.setMatrix_exp (s : State) (m : Matrix) (p : Phase) : (s.setMatrix m p).exp = s.exp := rfl
@[simp] theorem State.setMatrix_log (s : State) (m : Matrix) (p : Phase) : (s.setMatrix m p).log = s.log := rfl
@[simp] theorem State.setMatrix_tblValid (s : State) (m : Matrix) (p : Phase) : (s.setMatrix m p).tblValid = s.tblValid := rfl
@[simp] theorem State.setMatrix_msg (s : State) (m : Matrix) (p : Phase) : (s.setMatrix m p).msg = s.msg := rfl
@[simp] theorem State.setMatrix_msglen (s : State) (m : Matrix) (p : Phase) : (s.setMatrix m p).msglen = s.msglen := rfl
@[simp] theorem State.setMatrix_par (s : State) (m : Matrix) (p : Phase) : (s.setMatrix m p).par = s.par := rfl
@[simp] theorem State.setMatrix_parValid (s : State) (m : Matrix) (p : Phase) : (s.setMatrix m p).parValid = s.parValid := rfl
@[simp] theorem State.setMatrix_matrix (s : State) (m : Matrix) (p : Phase) : (s.setMatrix m p).matrix = m := rfl
@[simp] theorem State.setMatrix_phase (s : State) (m : Matrix) (p : Phase) : (s.setMatrix m p).phase = p := rfl
@[simp] theorem State.setMatrix_strict (s : State) (m : Matrix) (p : Phase) : (s.setMatrix m p).strict = s.strict := rfl
@[simp] theorem State.setMatrix_trunc (s : State) (m : Matrix) (p : Phase) : (s.setMatrix m p).trunc = s.trunc := rfl
@[simp] theorem State.setMatrix_result (s : State) (m : Matrix) (p : Phase) : (s.setMatrix m p).result = s.result := rfl
@[simp] theorem State.setMatrix_lasterr (s : State) (m : Matrix) (p : Phase) : (s.setMatrix m p).lasterr = s.lasterr := rfl
@[simp] theorem State.setMatrix_sticky (s : State) (m : Matrix) (p : Phase) : (s.setMatrix m p).sticky = s.sticky := rfl
@[simp] theorem State.setMatrix_formatWord (s : State) (m : Matrix) (p : Phase) : (s.setMatrix m p).formatWord = s.formatWord := rfl
@[simp] theorem State.setMatrix_formatMap (s : State) (m : Matrix) (p : Phase) : (s.setMatrix m p).formatMap = s.formatMap := rfl
@[simp] theorem State.setMatrix_prog (s : State) (m : Matrix) (p : Phase) : (s.setMatrix m p).prog = s.prog := rfl
@[simp] theorem State.setMatrix_pos (s : State) (m : Matrix) (p : Phase) : (s.setMatrix m p).pos = s.pos := rfl
@[simp] theorem State.setMatrix_reads (s : State) (m : Matrix) (p : Phase) : (s.setMatrix m p).reads = s.reads := rfl

/-! ### State.setTrunc -/

@[simp] theorem State.setTrunc_exp (s : State) (b : Bool) : (s.setTrunc b).exp = s.exp := rfl
@[simp] theorem State.setTrunc_log (s : State) (b : Bool) : (s.setTrunc b).log = s.log := rfl
@[simp] theorem State.setTrunc_tblValid (s : State) (b : Bool) : (s.setTrunc b).tblValid = s.tblValid := rfl
@[simp] theorem State.setTrunc_msg (s : State) (b : Bool) : (s.setTrunc b).msg = s.msg := rfl
@[simp] theorem State.setTrunc_msglen (s : State) (b : Bool) : (s.setTrunc b).msglen = s.msglen := rfl
@[simp] theorem State.setTrunc_par (s : State) (b : Bool) : (s.setTrunc b).par = s.par := rfl
@[simp] theorem State.setTrunc_parValid (s : State) (b : Bool) : (s.setTrunc b).parValid = s.parValid := rfl
@[simp] theorem State.setTrunc_matrix (s : State) (b : Bool) : (s.setTrunc b).matrix = s.matrix := rfl
@[simp] theorem State.setTrunc_phase (s : State) (b : Bool) : (s.setTrunc b).phase = s.phase := rfl
@[simp] theorem State.setTrunc_strict (s : State) (b : Bool) : (s.setTrunc b).strict = s.strict := rfl
@[simp] theorem State.setTrunc_trunc (s : State) (b : Bool) : (s.setTrunc b).trunc = b := rfl
@[simp] theorem State.setTrunc_result (s : State) (b : Bool) : (s.setTrunc b).result = s.result := rfl
@[simp] theorem State.setTrunc_lasterr (s : State) (b : Bool) : (s.setTrunc b).lasterr = s.lasterr := rfl
@[simp] theorem State.setTrunc_sticky (s : State) (b : Bool) : (s.setTrunc b).sticky = s.sticky := rfl
@[simp] theorem State.setTrunc_formatWord (s : State) (b : Bool) : (s.setTrunc b).formatWord = s.formatWord := rfl
@[simp] theorem State.setTrunc_formatMap (s : State) (b : Bool) : (s.setTrunc b).formatMap = s.formatMap := rfl
@[simp] theorem State.setTrunc_prog (s : State) (b : Bool) : (s.setTrunc b).prog = s.prog := rfl
@[simp] theorem State.setTrunc_pos (s : State) (b : Bool) : (s.setTrunc b).pos = s.pos := rfl
@[simp] theorem State.setTrunc_reads (s : State) (b : Bool) : (s.setTrunc b).reads = s.reads := rfl

/-! ### State.setStrict -/

@[simp] theorem State.setStrict_exp (s : State) (b : Bool) : (s.setStrict b).exp = s.exp := rfl
@[simp] theorem State.setStrict_log (s : State) (b : Bool) : (s.setStrict b).log = s.log := rfl
@[simp] theorem State.setStrict_tblValid (s : State) (b : Bool) : (s.setStrict b).tblValid = s.tblValid := rfl
@[simp] theorem State.setStrict_msg (s : State) (b : Bool) : (s.setStrict b).msg = s.msg := rfl
@[simp] theorem State.setStrict_msglen (s : State) (b : Bool) : (s.setStrict b).msglen = s.msglen := rfl
@[simp] theorem State.setStrict_par (s : State) (b : Bool) : (s.setStrict b).par = s.par := rfl
@[simp] theorem State.setStrict_parValid (s : State) (b : Bool) : (s.setStrict b).parValid = s.parValid := rfl
@[simp] theorem State.setStrict_matrix (s : State) (b : Bool) : (s.setStrict b).matrix = s.matrix := rfl
@[simp] theorem State.setStrict_phase (s : State) (b : Bool) : (s.setStrict b).phase = s.phase := rfl
@[simp] theorem State.setStrict_strict (s : State) (b : Bool) : (s.setStrict b).strict = b := rfl
@[simp] theorem State.setStrict_trunc (s : State) (b : Bool) : (s.setStrict b).trunc = s.trunc := rfl
@[simp] theorem State.setStrict_result (s : State) (b : Bool) : (s.setStrict b).result = s.result := rfl
@[simp] theorem State.setStrict_lasterr (s : State) (b : Bool) : (s.setStrict b).lasterr = s.lasterr := rfl
@[simp] theorem State.setStrict_sticky (s : State) (b : Bool) : (s.setStrict b).sticky = s.sticky := rfl
@[simp] theorem State.setStrict_formatWord (s : State) (b : Bool) : (s.setStrict b).formatWord = s.formatWord := rfl
@[simp] theorem State.setStrict_formatMap (s : State) (b : Bool) : (s.setStrict b).formatMap = s.formatMap := rfl
@[simp] theorem State.setStrict_prog (s : State) (b : Bool) : (s.setStrict b).prog = s.prog := rfl
@[simp] theorem State.setStrict_pos (s : State) (b : Bool) : (s.setStrict b).pos = s.pos := rfl
@[simp] theorem State.setStrict_reads (s : State) (b : Bool) : (s.setStrict b).reads = s.reads := rfl

/-! ### State.clearSticky -/

@[simp] theorem State.clearSticky_exp (s : State) : (s.clearSticky).exp = s.exp := rfl
@[simp] theorem State.clearSticky_log (s : State) : (s.clearSticky).log = s.log := rfl
@[simp] theorem State.clearSticky_tblValid (s : State) : (s.clearSticky).tblValid = s.tblValid := rfl
@[simp] theorem State.clearSticky_msg (s : State) : (s.clearSticky).msg = s.msg := rfl
@[simp] theorem State.clearSticky_msglen (s : State) : (s.clearSticky).msglen = s.msglen := rfl
@[simp] theorem State.clearSticky_par (s : State) : (s.clearSticky).par = s.par := rfl
@[simp] theorem State.clearSticky_parValid (s : State) : (s.clearSticky).parValid = s.parValid := rfl
@[simp] theorem State.clearSticky_matrix (s : State) : (s.clearSticky).matrix = s.matrix := rfl
@[simp] theorem State.clearSticky_phase (s : State) : (s.clearSticky).phase = s.phase := rfl
@[simp] theorem State.clearSticky_strict (s : State) : (s.clearSticky).strict = s.strict := rfl
@[simp] theorem State.clearSticky_trunc (s : State) : (s.clearSticky).trunc = false := rfl
@[simp] theorem State.clearSticky_result (s : State) : (s.clearSticky).result = s.result := rfl
@[simp] theorem State.clearSticky_lasterr (s : State) : (s.clearSticky).lasterr = s.lasterr := rfl
@[simp] theorem State.clearSticky_sticky (s : State) : (s.clearSticky).sticky = false := rfl
@[simp] theorem State.clearSticky_formatWord (s : State) : (s.clearSticky).formatWord = s.formatWord := rfl
@[simp] theorem State.clearSticky_formatMap (s : State) : (s.clearSticky).formatMap = s.formatMap := rfl
@[simp] theorem State.clearSticky_prog (s : State) : (s.clearSticky).prog = s.prog := rfl
@[simp] theorem State.clearSticky_pos (s : State) : (s.clearSticky).pos = s.pos := rfl
@[simp] theorem State.clearSticky_reads (s : State) : (s.clearSticky).reads = s.reads := rfl

/-! ### State.advance -/

@[simp] theorem State.advance_exp (s : State) : (s.advance).exp = s.exp := rfl
@[simp] theorem State.advance_log (s : State) : (s.advance).log = s.log := rfl
@[simp] theorem State.advance_tblValid (s : State) : (s.advance).tblValid = s.tblValid := rfl
@[simp] theorem State.advance_msg (s : State) : (s.advance).msg = s.msg := rfl
@[simp] theorem State.advance_msglen (s : State) : (s.advance).msglen = s.msglen := rfl
@[simp] theorem State.advance_par (s : State) : (s.advance).par = s.par := rfl
@[simp] theorem State.advance_parValid (s : State) : (s.advance).parValid = s.parValid := rfl
@[simp] theorem State.advance_matrix (s : State) : (s.advance).matrix = s.matrix := rfl
@[simp] theorem State.advance_phase (s : State) : (s.advance).phase = s.phase := rfl
@[simp] theorem State.advance_strict (s : State) : (s.advance).strict = s.strict := rfl
@[simp] theorem State.advance_trunc (s : State) : (s.advance).trunc = s.trunc := rfl
@[simp] theorem State.advance_result (s : State) : (s.advance).result = s.result := rfl
@[simp] theorem State.advance_lasterr (s : State) : (s.advance).lasterr = s.lasterr := rfl
@[simp] theorem State.advance_sticky (s : State) : (s.advance).sticky = s.sticky := rfl
@[simp] theorem State.advance_formatWord (s : State) : (s.advance).formatWord = s.formatWord := rfl
@[simp] theorem State.advance_formatMap (s : State) : (s.advance).formatMap = s.formatMap := rfl
@[simp] theorem State.advance_prog (s : State) : (s.advance).prog = s.prog := rfl
@[simp] theorem State.advance_pos (s : State) : (s.advance).pos = s.pos + 1 := rfl
@[simp] theorem State.advance_reads (s : State) : (s.advance).reads = s.reads := rfl

/-! ### State.deliver -/

@[simp] theorem State.deliver_exp (s : State) (v : Word) : (s.deliver v).exp = s.exp := rfl
@[simp] theorem State.deliver_log (s : State) (v : Word) : (s.deliver v).log = s.log := rfl
@[simp] theorem State.deliver_tblValid (s : State) (v : Word) : (s.deliver v).tblValid = s.tblValid := rfl
@[simp] theorem State.deliver_msg (s : State) (v : Word) : (s.deliver v).msg = s.msg := rfl
@[simp] theorem State.deliver_msglen (s : State) (v : Word) : (s.deliver v).msglen = s.msglen := rfl
@[simp] theorem State.deliver_par (s : State) (v : Word) : (s.deliver v).par = s.par := rfl
@[simp] theorem State.deliver_parValid (s : State) (v : Word) : (s.deliver v).parValid = s.parValid := rfl
@[simp] theorem State.deliver_matrix (s : State) (v : Word) : (s.deliver v).matrix = s.matrix := rfl
@[simp] theorem State.deliver_phase (s : State) (v : Word) : (s.deliver v).phase = s.phase := rfl
@[simp] theorem State.deliver_strict (s : State) (v : Word) : (s.deliver v).strict = s.strict := rfl
@[simp] theorem State.deliver_trunc (s : State) (v : Word) : (s.deliver v).trunc = s.trunc := rfl
@[simp] theorem State.deliver_result (s : State) (v : Word) : (s.deliver v).result = s.result := rfl
@[simp] theorem State.deliver_lasterr (s : State) (v : Word) : (s.deliver v).lasterr = s.lasterr := rfl
@[simp] theorem State.deliver_sticky (s : State) (v : Word) : (s.deliver v).sticky = s.sticky := rfl
@[simp] theorem State.deliver_formatWord (s : State) (v : Word) : (s.deliver v).formatWord = s.formatWord := rfl
@[simp] theorem State.deliver_formatMap (s : State) (v : Word) : (s.deliver v).formatMap = s.formatMap := rfl
@[simp] theorem State.deliver_prog (s : State) (v : Word) : (s.deliver v).prog = s.prog := rfl
@[simp] theorem State.deliver_pos (s : State) (v : Word) : (s.deliver v).pos = s.pos := rfl
@[simp] theorem State.deliver_reads (s : State) (v : Word) : (s.deliver v).reads = s.reads ++ [v] := rfl

/-! ### State.resetBlock -/

@[simp] theorem State.resetBlock_exp (s : State) : s.resetBlock.exp = State.reset.exp := rfl
@[simp] theorem State.resetBlock_log (s : State) : s.resetBlock.log = State.reset.log := rfl
@[simp] theorem State.resetBlock_tblValid (s : State) : s.resetBlock.tblValid = State.reset.tblValid := rfl
@[simp] theorem State.resetBlock_msg (s : State) : s.resetBlock.msg = State.reset.msg := rfl
@[simp] theorem State.resetBlock_msglen (s : State) : s.resetBlock.msglen = State.reset.msglen := rfl
@[simp] theorem State.resetBlock_par (s : State) : s.resetBlock.par = State.reset.par := rfl
@[simp] theorem State.resetBlock_parValid (s : State) : s.resetBlock.parValid = State.reset.parValid := rfl
@[simp] theorem State.resetBlock_matrix (s : State) : s.resetBlock.matrix = State.reset.matrix := rfl
@[simp] theorem State.resetBlock_phase (s : State) : s.resetBlock.phase = State.reset.phase := rfl
@[simp] theorem State.resetBlock_strict (s : State) : s.resetBlock.strict = State.reset.strict := rfl
@[simp] theorem State.resetBlock_trunc (s : State) : s.resetBlock.trunc = State.reset.trunc := rfl
@[simp] theorem State.resetBlock_result (s : State) : s.resetBlock.result = State.reset.result := rfl
@[simp] theorem State.resetBlock_lasterr (s : State) : s.resetBlock.lasterr = State.reset.lasterr := rfl
@[simp] theorem State.resetBlock_sticky (s : State) : s.resetBlock.sticky = State.reset.sticky := rfl
@[simp] theorem State.resetBlock_formatWord (s : State) : s.resetBlock.formatWord = s.formatWord := rfl
@[simp] theorem State.resetBlock_formatMap (s : State) : s.resetBlock.formatMap = s.formatMap := rfl
@[simp] theorem State.resetBlock_prog (s : State) : s.resetBlock.prog = s.prog := rfl
@[simp] theorem State.resetBlock_pos (s : State) : s.resetBlock.pos = s.pos := rfl
@[simp] theorem State.resetBlock_reads (s : State) : s.resetBlock.reads = s.reads := rfl

/-! ### State.withNextOp -/

@[simp] theorem State.withNextOp_exp (s : State) (op : HostOp) : (s.withNextOp op).exp = s.exp := rfl
@[simp] theorem State.withNextOp_log (s : State) (op : HostOp) : (s.withNextOp op).log = s.log := rfl
@[simp] theorem State.withNextOp_tblValid (s : State) (op : HostOp) : (s.withNextOp op).tblValid = s.tblValid := rfl
@[simp] theorem State.withNextOp_msg (s : State) (op : HostOp) : (s.withNextOp op).msg = s.msg := rfl
@[simp] theorem State.withNextOp_msglen (s : State) (op : HostOp) : (s.withNextOp op).msglen = s.msglen := rfl
@[simp] theorem State.withNextOp_par (s : State) (op : HostOp) : (s.withNextOp op).par = s.par := rfl
@[simp] theorem State.withNextOp_parValid (s : State) (op : HostOp) : (s.withNextOp op).parValid = s.parValid := rfl
@[simp] theorem State.withNextOp_matrix (s : State) (op : HostOp) : (s.withNextOp op).matrix = s.matrix := rfl
@[simp] theorem State.withNextOp_phase (s : State) (op : HostOp) : (s.withNextOp op).phase = s.phase := rfl
@[simp] theorem State.withNextOp_strict (s : State) (op : HostOp) : (s.withNextOp op).strict = s.strict := rfl
@[simp] theorem State.withNextOp_trunc (s : State) (op : HostOp) : (s.withNextOp op).trunc = s.trunc := rfl
@[simp] theorem State.withNextOp_result (s : State) (op : HostOp) : (s.withNextOp op).result = s.result := rfl
@[simp] theorem State.withNextOp_lasterr (s : State) (op : HostOp) : (s.withNextOp op).lasterr = s.lasterr := rfl
@[simp] theorem State.withNextOp_sticky (s : State) (op : HostOp) : (s.withNextOp op).sticky = s.sticky := rfl
@[simp] theorem State.withNextOp_formatWord (s : State) (op : HostOp) : (s.withNextOp op).formatWord = s.formatWord := rfl
@[simp] theorem State.withNextOp_formatMap (s : State) (op : HostOp) : (s.withNextOp op).formatMap = s.formatMap := rfl
@[simp] theorem State.withNextOp_prog (s : State) (op : HostOp) : (s.withNextOp op).prog = s.prog.take s.pos ++ op :: s.prog.drop (s.pos + 1) := rfl
@[simp] theorem State.withNextOp_pos (s : State) (op : HostOp) : (s.withNextOp op).pos = min s.pos s.prog.length := rfl
@[simp] theorem State.withNextOp_reads (s : State) (op : HostOp) : (s.withNextOp op).reads = s.reads := rfl

/-! ### State.reset: the values the spec gives (R260) -/

@[simp] theorem State.reset_tblValid : State.reset.tblValid = false := rfl
@[simp] theorem State.reset_msglen : State.reset.msglen = 0 := rfl
@[simp] theorem State.reset_parValid : State.reset.parValid = false := rfl
@[simp] theorem State.reset_phase : State.reset.phase = .noMatrix := rfl
@[simp] theorem State.reset_strict : State.reset.strict = false := rfl
@[simp] theorem State.reset_trunc : State.reset.trunc = false := rfl
@[simp] theorem State.reset_result : State.reset.result = 0 := rfl
@[simp] theorem State.reset_lasterr : State.reset.lasterr = .ok := rfl
@[simp] theorem State.reset_sticky : State.reset.sticky = false := rfl
@[simp] theorem State.reset_formatWord : State.reset.formatWord = Config.formatWordDefault := rfl
@[simp] theorem State.reset_formatMap : State.reset.formatMap = Config.formatMapDefault := rfl
@[simp] theorem State.reset_prog : State.reset.prog = [] := rfl
@[simp] theorem State.reset_pos : State.reset.pos = 0 := rfl
@[simp] theorem State.reset_reads : State.reset.reads = [] := rfl

end Sys2Proof.Machine
end

