-- ==== Sys2Proof/Laws/Ops.lean ====
section
/-! SUPPORT. Array laws (a read after a write), the reading of a matrix cell, and the two ways a command ends. -/

namespace Sys2Proof.Machine

/-! ## Arrays -/

theorem entry_setEntry {α : Type} {n : Nat} (d : α) (xs : Vector α n) (i j : Nat) (v : α) :
    entry d (setEntry xs i v) j = if i = j ∧ i < n then v else entry d xs j := by
  unfold entry setEntry
  rw [Vector.getElem?_setIfInBounds]
  by_cases h : i = j
  · subst h
    by_cases hn : i < n <;> simp [hn]
  · simp [h]

theorem entry_setEntry_same {α : Type} {n : Nat} (d : α) (xs : Vector α n) (i : Nat) (v : α) (h : i < n) :
    entry d (setEntry xs i v) i = v := by
  simp [entry_setEntry, h]

theorem entry_setEntry_other {α : Type} {n : Nat} (d : α) (xs : Vector α n) (i j : Nat) (v : α) (h : i ≠ j) :
    entry d (setEntry xs i v) j = entry d xs j := by
  simp [entry_setEntry, h]

theorem entry_of_le {α : Type} {n : Nat} (d : α) (xs : Vector α n) (i : Nat) (h : n ≤ i) : entry d xs i = d := by
  simp [entry, h]

theorem entry_replicate {α : Type} (n : Nat) (d v : α) (i : Nat) :
    entry d (Vector.replicate n v) i = if i < n then v else d := by
  unfold entry
  by_cases h : i < n <;> simp [h]

theorem entry_toList {α : Type} {n : Nat} (d : α) (xs : Vector α n) (i : Nat) :
    entry d xs i = xs.toList.getD i d := by
  simp [entry, List.getD_eq_getElem?_getD]

/-- Arrays that read alike at every index are equal. -/
theorem entry_ext {α : Type} {n : Nat} (d : α) {xs ys : Vector α n}
    (h : ∀ i, i < n → entry d xs i = entry d ys i) : xs = ys := by
  apply Vector.ext
  intro i hi
  have := h i hi
  simpa [entry, hi] using this

theorem bitAt_setEntry {n : Nat} (xs : Vector Bool n) (i j : Nat) (b : Bool) :
    bitAt (setEntry xs i b) j = if i = j ∧ i < n then b else bitAt xs j :=
  entry_setEntry false xs i j b

theorem byteAt_setEntry {n : Nat} (xs : Vector Byte n) (i j : Nat) (b : Byte) :
    byteAt (setEntry xs i b) j = if i = j ∧ i < n then b else byteAt xs j :=
  entry_setEntry 0 xs i j b

/-! ## Cells -/

/-- Reading a cell after writing one (R9). -/
theorem cell_setCell (m : Matrix) (r c r' c' : Nat) (b : Bool) :
    cell (setCell m r c b) r' c' = if r = r' ∧ c = c' ∧ r < 11 ∧ c < 11 then b else cell m r' c' := by
  unfold cell setCell matrixRow
  rw [entry_setEntry]
  by_cases hr : r = r' ∧ r < 11
  · obtain ⟨rfl, hr⟩ := hr
    simp only [true_and, hr, if_true]
    rw [bitAt_setEntry]
  · rw [if_neg hr, if_neg]
    rintro ⟨h1, -, h2, -⟩
    exact hr ⟨h1, h2⟩

theorem cell_setCell_same (m : Matrix) (r c : Nat) (b : Bool) (hr : r ≤ 10) (hc : c ≤ 10) :
    cell (setCell m r c b) r c = b := by
  rw [cell_setCell, if_pos (by omega)]

theorem cell_setCell_other (m : Matrix) (r c r' c' : Nat) (b : Bool) (h : (r, c) ≠ (r', c')) :
    cell (setCell m r c b) r' c' = cell m r' c' := by
  rw [cell_setCell, if_neg]
  rintro ⟨rfl, rfl, -⟩
  exact h rfl

theorem cell_cleared (r c : Nat) : cell clearedMatrix r c = false := by
  unfold cell clearedMatrix matrixRow bitAt
  rw [entry_replicate]
  split <;> simp [entry_replicate]

/-- Matrices that read alike at every cell are equal. -/
theorem cell_ext {m m' : Matrix} (h : ∀ r c, r ≤ 10 → c ≤ 10 → cell m r c = cell m' r c) : m = m' := by
  apply entry_ext (Vector.replicate 11 false)
  intro r hr
  apply entry_ext false
  intro c hc
  exact h r c (by omega) (by omega)

/-- A fold of cell writes leaves every cell it does not write. -/
theorem cell_foldl_setCell_other {α : Type} (f : α → Nat × Nat) (g : α → Bool) (xs : List α) (m : Matrix) (r c : Nat)
    (h : ∀ x ∈ xs, f x ≠ (r, c)) :
    cell (xs.foldl (fun m x => setCell m (f x).1 (f x).2 (g x)) m) r c = cell m r c := by
  induction xs generalizing m with
  | nil => rfl
  | cons x xs ih =>
    rw [List.foldl_cons, ih _ fun y hy => h y (List.mem_cons_of_mem _ hy)]
    exact cell_setCell_other _ _ _ _ _ _ (h x List.mem_cons_self)

/-- A fold of cell writes to different cells leaves each cell with its own bit. -/
theorem cell_foldl_setCell_mem {α : Type} (f : α → Nat × Nat) (g : α → Bool) (xs : List α) (m : Matrix) (x : α)
    (hx : x ∈ xs) (hnd : (xs.map f).Nodup) (hr : (f x).1 ≤ 10) (hc : (f x).2 ≤ 10) :
    cell (xs.foldl (fun m x => setCell m (f x).1 (f x).2 (g x)) m) (f x).1 (f x).2 = g x := by
  induction xs generalizing m with
  | nil => cases hx
  | cons y ys ih =>
    rw [List.map_cons, List.nodup_cons] at hnd
    rw [List.foldl_cons]
    rcases List.mem_cons.mp hx with rfl | hx
    · rw [cell_foldl_setCell_other f g ys _ _ _ fun z hz he => hnd.1 (List.mem_map.mpr ⟨z, hz, he⟩)]
      exact cell_setCell_same _ _ _ _ hr hc
    · exact ih _ hx hnd.2

/-! ## Evaluation order -/

@[simp] theorem eagerly_eq {α : Type} (n : Nat) (k : Nat → α) : eagerly n k = k n := by
  cases n <;> rfl

/-! ## How a command ends -/

theorem raise_eq (e : ErrCode) (s : State) : raise e s = .next { s with lasterr := e, sticky := true } := rfl

theorem complete_eq (s : State) : complete s = .next { s with lasterr := .ok } := rfl

/-- All that `raise` can do (R231). -/
theorem raise_next {e : ErrCode} {s t : State} (h : raise e s = .next t) : t = s.fail e := by
  cases h
  rfl

/-- All that `complete` can do (R9). -/
theorem complete_next {s t : State} (h : complete s = .next t) : t = s.succeed := by
  cases h
  rfl

end Sys2Proof.Machine
end

