-- ==== Sys2Proof/Laws/Field.lean ====
section
/-! SUPPORT. The tables that TINIT builds, entry by entry, and the pseudocode loop of R102 that `buildLog` stands for. -/

namespace Sys2Proof.Machine

theorem doublings_length (k v : Nat) : (doublings k v).length = k := by
  induction k generalizing v with
  | zero => rfl
  | succ k ih => simp [doublings, ih]

/-- `k` doublings of a byte. -/
def xtimes : Nat → Byte → Byte
  | 0, v => v
  | k + 1, v => xtimes k (xtime v)

theorem xtimes_succ (k : Nat) (v : Byte) : xtimes (k + 1) v = xtime (xtimes k v) := by
  induction k generalizing v with
  | zero => rfl
  | succ k ih => rw [xtimes, ih]; rfl

/-- Entry `i` of a run of doublings is the `i`-th double of its first entry (R101). -/
theorem doublings_getD (k v i : Nat) (hi : i < k) : (doublings k v).getD i 0 = xtimes i (BitVec.ofNat 8 v) := by
  induction k generalizing v i with
  | zero => omega
  | succ k ih =>
    rw [doublings, eagerly_eq]
    cases i with
    | zero => rfl
    | succ i =>
      rw [List.getD_cons_succ, ih _ _ (by omega), xtimes]
      simp

theorem byteAt_tableOf (xs : List Byte) (i : Nat) (hi : i < 256) : byteAt (tableOf xs) i = xs.getD i 0 := by
  unfold byteAt
  rw [entry_toList]
  simp only [tableOf, List.getD_eq_getElem?_getD, Vector.toList]
  rw [List.getElem?_append]
  by_cases h : i < xs.length
  · have : i < (xs.take 256).length := by simp; omega
    rw [if_pos this, List.getElem?_take, if_pos hi]
  · have hlen : (xs.take 256).length = xs.length := by simp; omega
    rw [hlen, if_neg h, List.getElem?_replicate, if_pos (by omega)]
    simp [List.getElem?_eq_none (Nat.le_of_not_lt h)]

theorem byteAt_buildExp (i : Nat) (hi : i < 256) : byteAt buildExp i = xtimes i 1 := by
  rw [buildExp, byteAt_tableOf _ _ hi, doublings_getD _ _ _ hi]
  rfl

theorem byteAt_buildExp_zero : byteAt buildExp 0 = 1 := byteAt_buildExp 0 (by omega)

/-- EXP is built by doubling (R101). -/
theorem byteAt_buildExp_succ (i : Nat) (hi : i < 255) : byteAt buildExp (i + 1) = xtime (byteAt buildExp i) := by
  rw [byteAt_buildExp _ (by omega), byteAt_buildExp _ (by omega), xtimes_succ]

/-! ## The log table -/

theorem lastIndexOf_none {v : Byte} {es : List Byte} (h : lastIndexOf v es = none) : v ∉ es := by
  induction es with
  | nil => simp
  | cons e es ih =>
    rw [lastIndexOf] at h
    split at h
    · cases h
    · next hn =>
      split at h
      · cases h
      · next hev =>
        rw [List.mem_cons]
        rintro (rfl | hm)
        · exact hev rfl
        · exact ih hn hm

/-- What `lastIndexOf` finds is an index of the value, and the last one. -/
theorem lastIndexOf_some {v : Byte} {es : List Byte} {i : Nat} (h : lastIndexOf v es = some i) :
    es[i]? = some v ∧ ∀ j, i < j → es[j]? ≠ some v := by
  induction es generalizing i with
  | nil => cases h
  | cons e es ih =>
    rw [lastIndexOf] at h
    split at h
    · next j hj =>
      cases h
      obtain ⟨h1, h2⟩ := ih hj
      refine ⟨by simpa using h1, fun k hk => ?_⟩
      cases k with
      | zero => omega
      | succ k => simpa using h2 k (by omega)
    · next hn =>
      split at h
      · next hev =>
        cases h
        refine ⟨by simp [hev], fun k hk => ?_⟩
        cases k with
        | zero => omega
        | succ k => exact fun hk' => lastIndexOf_none hn (List.mem_of_getElem? (by simpa using hk'))
      · cases h

/-- Entry `v` of the log table that `buildLog` builds (R102). -/
theorem byteAt_buildLog (e l : Vector Byte 256) (v : Nat) (hv : v < 256) :
    byteAt (buildLog e l) v =
      match lastIndexOf (BitVec.ofNat 8 v) (e.toList.take 255) with
      | some i => BitVec.ofNat 8 i
      | none => byteAt l v := by
  rw [buildLog, byteAt_tableOf _ _ hv, List.getD_eq_getElem?_getD, List.getElem?_map, List.getElem?_range hv]
  rfl

/-- The loop of R102 over the first `k` entries of EXP: `for i in 0..k-1: LOG[EXP[i]] <- i`. -/
def logLoop (e l : Vector Byte 256) : Nat → Vector Byte 256
  | 0 => l
  | k + 1 => setEntry (logLoop e l k) (byteAt e k).toNat (BitVec.ofNat 8 k)

theorem lastIndexOf_append (v e : Byte) (es : List Byte) :
    lastIndexOf v (es ++ [e]) = if e = v then some es.length else lastIndexOf v es := by
  induction es with
  | nil => simp [lastIndexOf]
  | cons a es ih =>
    rw [List.cons_append, lastIndexOf, ih]
    by_cases h : e = v <;> simp [h, lastIndexOf]

theorem byteAt_logLoop (e l : Vector Byte 256) (k : Nat) (hk : k ≤ 256) (v : Byte) :
    byteAt (logLoop e l k) v.toNat =
      match lastIndexOf v (e.toList.take k) with
      | some i => BitVec.ofNat 8 i
      | none => byteAt l v.toNat := by
  induction k with
  | zero => simp [logLoop, lastIndexOf]
  | succ k ih =>
    have htake : e.toList.take (k + 1) = e.toList.take k ++ [byteAt e k] := by
      rw [List.take_add_one]
      congr 1
      simp [byteAt, entry, show k < 256 by omega]
    have hlen : (e.toList.take k).length = k := by simp; omega
    rw [logLoop, byteAt_setEntry, htake, lastIndexOf_append, hlen, ih (by omega)]
    by_cases h : byteAt e k = v
    · simp [h, v.isLt]
    · rw [if_neg h, if_neg]
      rintro ⟨h', -⟩
      exact h (BitVec.eq_of_toNat_eq h')

/-- `buildLog` is the loop of R102, whatever EXP and the old LOG hold. -/
theorem buildLog_eq_loop (e l : Vector Byte 256) : buildLog e l = logLoop e l 255 := by
  apply entry_ext 0
  intro v hv
  have h := byteAt_logLoop e l 255 (by omega) (BitVec.ofNat 8 v)
  have hv' : (BitVec.ofNat 8 v).toNat = v := by simp; omega
  rw [hv'] at h
  exact (byteAt_buildLog e l v hv).trans h.symm

/-! ## The multiply primitive -/

theorem gmul_zero_left (e l : Vector Byte 256) (b : Byte) : gmul e l 0 b = 0 := by simp [gmul]

theorem gmul_zero_right (e l : Vector Byte 256) (a : Byte) : gmul e l a 0 = 0 := by simp [gmul]

theorem gmul_of_ne_zero (e l : Vector Byte 256) {a b : Byte} (ha : a ≠ 0) (hb : b ≠ 0) :
    gmul e l a b = byteAt e (((byteAt l a.toNat).toNat + (byteAt l b.toNat).toNat) % 255) := by
  rw [gmul, if_neg (not_or.mpr ⟨ha, hb⟩)]

end Sys2Proof.Machine
end

