-- ==== Sys2Proof/Laws/Matrix.lean ====
section
/-! SUPPORT. The cell lists of the matrix constructor and what its folds leave alone. -/

namespace Sys2Proof.Machine

theorem mem_square {n r c : Nat} : (r, c) ∈ square n ↔ r < n ∧ c < n := by
  simp [square]

theorem order_length : order.length = Config.dataCells := by decide

theorem order_nodup : order.Nodup := by decide

/-- The placement order visits data cells only (R168). -/
theorem order_isData : ∀ p ∈ order, isData p.1 p.2 = true ∧ p.1 ≤ 10 ∧ p.2 ≤ 10 := by decide

theorem square_nodup : (square 11).Nodup := by decide

/-- Placement writes no reserved cell (R171, R175). -/
theorem cell_placeBits_reserved (bs : List Bool) (m : Matrix) (r c : Nat) (h : isData r c = false) :
    cell (placeBits bs m) r c = cell m r c := by
  refine cell_foldl_setCell_other (fun p : (Nat × Nat) × Bool => p.1) (fun p => p.2) _ m r c fun x hx he => ?_
  have := (order_isData x.1 (List.of_mem_zip hx).1).1
  rw [he, h] at this
  cases this

/-- The format cells are not data cells (R161). -/
theorem isData_of_isFormatCell {r c : Nat} (h : isFormatCell r c = true) : isData r c = false := by
  simp only [isFormatCell, decide_eq_true_eq] at h
  unfold isData
  repeat' split
  all_goals rfl

theorem byteBits_length (b : Byte) : (byteBits b).length = 8 := by simp [byteBits]

theorem placementBits_length (s : State) : (placementBits s).length = placementTotal s := by
  simp [placementBits, byteBits_length, placementTotal, Config.parityBits]

end Sys2Proof.Machine
end

