-- ==== Sys2Proof/Laws/Message.lean ====
section
/-! SUPPORT. Lengths in the packing and the division, and what appending bits to the message does. -/

namespace Sys2Proof.Machine

theorem pack_length (msg : Vector Bool 32) (L : Nat) : (pack msg L).length = codewordCount L := by
  simp [pack]

theorem pack_getD (msg : Vector Bool 32) (L k : Nat) (hk : k < codewordCount L) :
    (pack msg L).getD k 0 = codeword msg L k := by
  simp only [pack, List.getD_eq_getElem?_getD, List.getElem?_map, List.getElem?_range hk, Option.map_some,
    Option.getD_some]

/-- A step of the division keeps the buffer's length (R134). -/
theorem divStep_length (g : Byte → Byte → Byte) (B : List Byte) (i : Nat) : (divStep g B i).length = B.length := by
  unfold divStep
  generalize List.range 3 = js
  generalize B.getD i 0 = c
  by_cases h : c = 0
  · simp only [h, if_true]
  · simp only [h, if_false]
    induction js generalizing B with
    | nil => rfl
    | cons j js ih => rw [List.foldl_cons, ih, List.length_set]

/-- The remainder buffer is two bytes longer than the message (R134). -/
theorem divide_length (g : Byte → Byte → Byte) (cw : List Byte) : (divide g cw).length = cw.length + 2 := by
  unfold divide
  generalize hB : cw ++ [0, 0] = B
  have hlen : B.length = cw.length + 2 := by simp [← hB]
  rw [← hlen]
  generalize List.range cw.length = js
  clear hB hlen
  induction js generalizing B with
  | nil => rfl
  | cons j js ih => rw [List.foldl_cons, ih, divStep_length]

theorem putBits_length (n : BitVec 5) (v : BitVec 16) : (putBits n v).length = n.toNat := by
  simp [putBits]

/-- All that appending bits to the message does (R133): bits from `L` on are the list's, the others stay. -/
theorem bitAt_appendBits (msg : Vector Bool 32) (L : Nat) (bs : List Bool) (h : L + bs.length ≤ 32) (k : Nat) :
    bitAt (appendBits msg L bs) k = if L ≤ k ∧ k < L + bs.length then bs.getD (k - L) false else bitAt msg k := by
  induction bs generalizing msg L with
  | nil => rw [appendBits, if_neg (by rw [List.length_nil]; omega)]
  | cons b bs ih =>
    rw [List.length_cons] at h ⊢
    rw [appendBits, ih _ _ (by omega), bitAt_setEntry]
    by_cases hk : L = k
    · subst hk
      rw [if_neg (by omega), if_pos (by omega), if_pos (by omega)]
      simp
    · by_cases hk' : L ≤ k ∧ k < L + (bs.length + 1)
      · rw [if_pos (by omega), if_pos hk']
        obtain ⟨d, rfl⟩ : ∃ d, k = L + 1 + d := ⟨k - (L + 1), by omega⟩
        rw [show L + 1 + d - L = d + 1 by omega, List.getD_cons_succ, Nat.add_sub_cancel_left]
      · rw [if_neg (by omega), if_neg hk', if_neg (by omega)]

end Sys2Proof.Machine
end

