-- ==== Sys2Proof/Laws/PerInstr.lean ====
section
/-! SUPPORT. The families of statements made per command. TableRow: the word of a well-formed command matches its row of
the opcode map (R77). -/

namespace Sys2Proof.Laws.TableRow

/-- `(w & mask) == match` for the word of the command (R77). -/
def Statement (i : Instr) : Prop := i.wellFormed = true → encode i &&& tableMask i = tableMatch i

/-- The word of format B8 under the mask 0xFFFFFF00. -/
theorem encodeB8_masked (op b : Byte) : encodeB8 op b &&& 0xFFFFFF00#32 = encodeB8 op 0 := by
  apply BitVec.eq_of_getLsbD_eq
  intro k hk
  simp only [encodeB8, BitVec.getLsbD_and, BitVec.getLsbD_append]
  interval_cases k <;> simp

/-- The word of format B16 under the mask 0xFFFF0000. -/
theorem encodeB16_masked (op a b : Byte) : encodeB16 op a b &&& 0xFFFF0000#32 = encodeB16 op 0 0 := by
  apply BitVec.eq_of_getLsbD_eq
  intro k hk
  simp only [encodeB16, BitVec.getLsbD_and, BitVec.getLsbD_append]
  interval_cases k <;> simp

/-- The word of format P under the mask 0xFFE00000. -/
theorem encodeP_masked (op : Byte) (n : BitVec 5) (v : BitVec 16) :
    encodeP op n v &&& 0xFFE00000#32 = encodeP op 0 0 := by
  apply BitVec.eq_of_getLsbD_eq
  intro k hk
  simp only [encodeP, BitVec.getLsbD_and, BitVec.getLsbD_append]
  interval_cases k <;> simp

theorem nop : Statement .nop := fun _ => by decide
theorem tinit : Statement .tinit := fun _ => by decide
theorem gfmul (a b : Byte) : Statement (.gfmul a b) := fun _ => (encodeB16_masked 0x02 a b).trans rfl
theorem exprd (b : Byte) : Statement (.exprd b) := fun _ => (encodeB8_masked 0x03 b).trans rfl
theorem logrd (b : Byte) : Statement (.logrd b) := fun _ => (encodeB8_masked 0x04 b).trans rfl
theorem msgclr : Statement .msgclr := fun _ => by decide
theorem msgput (n : BitVec 5) (v : BitVec 16) : Statement (.msgput n v) := fun _ => (encodeP_masked 0x11 n v).trans rfl
theorem cwrd (b : Byte) : Statement (.cwrd b) := fun _ => (encodeB8_masked 0x12 b).trans rfl
theorem rsgen : Statement .rsgen := fun _ => by decide
theorem parrd : Statement .parrd := fun _ => by decide
theorem classify (a b : Byte) : Statement (.classify a b) := fun _ => (encodeB16_masked 0x20 a b).trans rfl
theorem mclr : Statement .mclr := fun _ => by decide
theorem mfind : Statement .mfind := fun _ => by decide
theorem mtime : Statement .mtime := fun _ => by decide
theorem mfmt : Statement .mfmt := fun _ => by decide
theorem mplace : Statement .mplace := fun _ => by decide
theorem mmask : Statement .mmask := fun _ => by decide
theorem mbuild : Statement .mbuild := fun _ => by decide
theorem mrdrow (b : Byte) : Statement (.mrdrow b) := fun _ => (encodeB8_masked 0x28 b).trans rfl
theorem ctlwr (b : Byte) : Statement (.ctlwr b) := by
  unfold Statement
  revert b
  decide
theorem stclr : Statement .stclr := fun _ => by decide

end Sys2Proof.Laws.TableRow
end

