-- ==== Sys2Proof/Laws/Port.lean ====
section
/-! SUPPORT. All that a step, a host operation and a bus access can do, said once; later proofs cite these instead of
unfolding. -/

namespace Sys2Proof.Machine

/-- A word that decodes runs as its command. -/
theorem issue_ok {w : Word} {i : Instr} (h : decode w = .ok i) (s : State) : issue w s = exec i s := by
  simp [issue, h]

/-- A word that does not decode ends in E_ILLEGAL (R79). -/
theorem issue_error {w : Word} {e : DecodeError} (h : decode w = .error e) (s : State) :
    issue w s = raise .illegal s := by
  simp [issue, h]

/-- Every command ends by `raise` on the state it was given, or by `complete` (R231). -/
theorem exec_ends (i : Instr) (s : State) : (∃ e, e ≠ .ok ∧ exec i s = raise e s) ∨ ∃ t, exec i s = complete t := by
  cases i <;>
    simp only [exec, execNop, execTinit, execGfmul, execExprd, execLogrd, execMsgclr, execMsgput, execCwrd, execRsgen,
      execParrd, execClassify, execMclr, execMfind, execMtime, execMfmt, execMplace, execMmask, execMbuild, execMrdrow,
      execCtlwr, execStclr] <;>
    (repeat' split) <;>
    first
    | exact .inr ⟨_, rfl⟩
    | exact .inl ⟨_, by decide, rfl⟩

/-- A word issued always answers a next state. -/
theorem issue_next (w : Word) (s : State) : ∃ t, issue w s = .next t := by
  unfold issue
  split
  · next i _ => rcases exec_ends i s with ⟨e, -, h⟩ | ⟨t, h⟩ <;> exact ⟨_, h⟩
  · exact ⟨_, rfl⟩

/-- All that a bus access can do (R52, R53): stop for one of three reasons, or be an aligned whole-word access of a
register of the window. -/
theorem busAccess_cases (width addr : Nat) (k : PortReg → Result) :
    busAccess width addr k = .fault .outsidePort ∨ busAccess width addr k = .refused .notWordAccess ∨
    busAccess width addr k = .refused .unalignedAccess ∨ ∃ r, busAccess width addr k = k r := by
  unfold busAccess
  split
  · exact .inl rfl
  split
  · exact .inr (.inl rfl)
  split
  · exact .inr (.inr (.inl rfl))
  · exact .inr (.inr (.inr ⟨_, rfl⟩))

/-- Past the end of the program a step changes nothing. -/
theorem step_idle {s : State} (h : nextOp s = none) : step s = .next s := by
  simp [step, h]

/-- A step runs the host's next operation, the position moved past it (R21). -/
theorem step_op {s : State} {op : HostOp} (h : nextOp s = some op) : step s = hostOp op s.advance := by
  simp [step, h]

/-- The operation that `withNextOp` puts in place is the next one, and the position moves past it. -/
theorem nextOp_withNextOp (s : State) (op : HostOp) : nextOp (s.withNextOp op) = some op := by
  have hlen : (s.prog.take s.pos).length = min s.pos s.prog.length := by simp
  simp only [nextOp, State.withNextOp]
  rw [List.getElem?_append_right (by omega), hlen, Nat.sub_self]
  rfl

/-- The very next step after `withFetchWord` issues that word. -/
theorem step_withFetchWord (s : State) (nbits w : Nat) :
    step (s.withFetchWord nbits w) =
      issue (BitVec.ofNat 32 (w % 2 ^ nbits)) (s.withFetchWord nbits w).advance :=
  step_op (nextOp_withNextOp s _)

end Sys2Proof.Machine
end

