-- ==== Sys2Proof/Laws/Tables.lean ====
section
/-! SUPPORT. The tables that TINIT builds hold the field's tables, whatever LOG held before. -/

namespace Sys2Proof.Machine

/-- Every nonzero byte stands in the first 255 entries of EXP, by evaluation (R101's distinctness, R110). -/
theorem nonzero_listed : (List.range 255).all (fun k => (doublings 255 1).contains (BitVec.ofNat 8 (k + 1))) = true := by
  decide +kernel

theorem buildExp_take : buildExp.toList.take 255 = doublings 255 1 := by decide +kernel

theorem mem_buildExp {v : Byte} (h : v ≠ 0) : v ∈ buildExp.toList.take 255 := by
  have hv : v.toNat ≠ 0 := fun h' => h (BitVec.eq_of_toNat_eq h')
  have hm := List.all_eq_true.mp nonzero_listed (v.toNat - 1) (List.mem_range.mpr (by have := v.isLt; omega))
  rw [show v.toNat - 1 + 1 = v.toNat by omega] at hm
  rw [buildExp_take]
  simpa using hm

/-- The log of a nonzero byte is an index below 255 of that byte in EXP (R102). -/
theorem buildLog_spec (l : Vector Byte 256) {v : Byte} (h : v ≠ 0) :
    ∃ i, i < 255 ∧ byteAt (buildLog buildExp l) v.toNat = BitVec.ofNat 8 i ∧ byteAt buildExp i = v := by
  have hb := byteAt_buildLog buildExp l v.toNat v.isLt
  rw [BitVec.ofNat_toNat, BitVec.setWidth_eq] at hb
  split at hb
  · next i hi =>
    obtain ⟨hget, -⟩ := lastIndexOf_some hi
    have hlt : i < 255 := by
      have := (List.getElem?_eq_some_iff.mp hget).1
      simp at this
      omega
    refine ⟨i, hlt, hb, ?_⟩
    rw [List.getElem?_take, if_pos hlt] at hget
    rw [byteAt, entry_toList, List.getD_eq_getElem?_getD, hget, Option.getD_some]
  · next hn => exact absurd (mem_buildExp h) (lastIndexOf_none hn)

/-- What TINIT builds is what R33 and R34 say of the tables. -/
theorem built_tables_hold (l : Vector Byte 256) : TablesHold buildExp (buildLog buildExp l) where
  exp_zero := byteAt_buildExp_zero
  exp_succ := byteAt_buildExp_succ
  log_lt v hv := by
    obtain ⟨i, hi, he, -⟩ := buildLog_spec l hv
    rw [he, BitVec.toNat_ofNat]
    omega
  exp_log v hv := by
    obtain ⟨i, hi, he, hx⟩ := buildLog_spec l hv
    rw [he, BitVec.toNat_ofNat, Nat.mod_eq_of_lt (by omega), hx]

end Sys2Proof.Machine
end

