-- ==== Sys2Proof/Tests/Slice0.lean ====
section
/-! SUPPORT. Tests of one step each (expected values from 95_test_vectors.md or worked out from the rule named), and for
every statement with hypotheses a witness: a concrete state and operands that meet them. -/

namespace Sys2Proof.Tests

open Sys2Proof Sys2Proof.Machine

/-! ## Helpers -/

/-- A field or two of the state that a command leaves. -/
def after {α : Type} (r : Result) (f : State → α) : Option α :=
  match r with
  | .next t => some (f t)
  | .fault _ => none
  | .refused _ => none

/-- RESULT and STATUS, as the traces of 95_test_vectors.md give them. -/
def seen (r : Result) : Option (Word × Word) := after r fun t => (t.result, statusWord t)

/-- The row words of the matrix that a command leaves. -/
def rowsAfter (r : Result) : Option (List Word) := after r fun t => (List.range 11).map (rowWord t.matrix)

/-- The matrix with the given row words. -/
def matrixOf (rows : List Nat) : Matrix := Vector.ofFn fun r => Vector.ofFn fun c => (rows.getD r 0).testBit c

/-- The message buffer that starts with the 32 bits of a number. -/
def msgOf (v : Nat) : Vector Bool 32 := Vector.ofFn fun k => v.testBit (31 - k)

/-- After reset and TINIT. -/
def tabled : State :=
  { State.reset with tblValid := true, exp := buildExp, log := buildLog buildExp State.reset.log }

/-- The "1" message of program P2 loaded. -/
def loaded : State := { tabled with msg := msgOf 0x22000000, msglen := 20 }

/-- The "1" message with its parity. -/
def paired : State := { loaded with par := #v[0xE3, 0x2A], parValid := true }

/-- `paired` at a PHASE, with the given row words. -/
def atPhase (p : Phase) (rows : List Nat) : State := { paired with phase := p, matrix := matrixOf rows }

/-- The row words of the "1" symbol after each phase (95_test_vectors.md 2.3). -/
def rowsFinder : List Nat := [0x07F, 0x041, 0x05D, 0x05D, 0x05D, 0x041, 0x07F, 0x000, 0x000, 0x000, 0x000]
def rowsTiming : List Nat := [0x57F, 0x041, 0x05D, 0x05D, 0x05D, 0x041, 0x07F, 0x000, 0x001, 0x000, 0x001]
def rowsFormat : List Nat := [0x57F, 0x141, 0x05D, 0x15D, 0x05D, 0x041, 0x07F, 0x100, 0x023, 0x000, 0x001]
def rowsPlaced : List Nat := [0x57F, 0x141, 0x05D, 0x15D, 0x05D, 0x041, 0x07F, 0x500, 0x023, 0x574, 0x185]
def rowsDone : List Nat := [0x57F, 0x341, 0x45D, 0x35D, 0x45D, 0x241, 0x47F, 0x700, 0x423, 0x7DE, 0x4D1]

/-- The completed "1" symbol, the end state of program P2 but for RESULT. -/
def finished : State := atPhase .done rowsDone

/-- After reset, with one host operation to run. -/
def hosting (op : HostOp) : State := { State.reset with prog := [op] }

/-! ## WellFormed: the one check refuses the terms it is for -/

theorem test_wellFormed_refuses_ctlwr_bit1 : (Instr.ctlwr 2).wellFormed = false := by decide
theorem test_wellFormed_refuses_ctlwr_bit7 : (Instr.ctlwr 0x80).wellFormed = false := by decide
theorem test_wellFormed_takes_ctlwr : (Instr.ctlwr 1).wellFormed = true := by decide

/-! ## Decode: words written out from R71 to R77 -/

theorem test_decode_nop : decode 0x00000000 = .ok .nop := by decide
theorem test_decode_tinit : decode 0x01000000 = .ok .tinit := by decide
theorem test_decode_gfmul : decode 0x020053CA = .ok (.gfmul 0x53 0xCA) := by decide
theorem test_decode_exprd : decode 0x03000019 = .ok (.exprd 25) := by decide
theorem test_decode_logrd : decode 0x0400008E = .ok (.logrd 0x8E) := by decide
theorem test_decode_msgclr : decode 0x10000000 = .ok .msgclr := by decide
theorem test_decode_msgput : decode 0b00010001000100000010001000000001 = .ok (.msgput 16 0x2201) := by decide
theorem test_decode_msgput_n31 : decode 0x111F8000 = .ok (.msgput 31 0x8000) := by decide
theorem test_decode_cwrd : decode 0x12000003 = .ok (.cwrd 3) := by decide
theorem test_decode_rsgen : decode 0x13000000 = .ok .rsgen := by decide
theorem test_decode_parrd : decode 0x14000000 = .ok .parrd := by decide
theorem test_decode_class : decode 0x2000090A = .ok (.classify 9 10) := by decide
theorem test_decode_mclr : decode 0x21000000 = .ok .mclr := by decide
theorem test_decode_mfind : decode 0x22000000 = .ok .mfind := by decide
theorem test_decode_mtime : decode 0x23000000 = .ok .mtime := by decide
theorem test_decode_mfmt : decode 0x24000000 = .ok .mfmt := by decide
theorem test_decode_mplace : decode 0x25000000 = .ok .mplace := by decide
theorem test_decode_mmask : decode 0x26000000 = .ok .mmask := by decide
theorem test_decode_mbuild : decode 0x27000000 = .ok .mbuild := by decide
theorem test_decode_mrdrow : decode 0x2800000B = .ok (.mrdrow 11) := by decide
theorem test_decode_ctlwr : decode 0x30000001 = .ok (.ctlwr 1) := by decide
theorem test_decode_stclr : decode 0x31000000 = .ok .stclr := by decide

/-- 95_test_vectors.md 2.5, and the last undefined opcode on each side of a defined range (R79). -/
theorem test_decode_undefined :
    decode 0x05000000 = .error .undefinedOpcode ∧
    decode 0x0F000000 = .error .undefinedOpcode ∧
    decode 0x15000000 = .error .undefinedOpcode ∧
    decode 0x1F000000 = .error .undefinedOpcode ∧
    decode 0x29000000 = .error .undefinedOpcode ∧
    decode 0x2F000000 = .error .undefinedOpcode ∧
    decode 0x32000000 = .error .undefinedOpcode ∧
    decode 0xFFFFFFFF = .error .undefinedOpcode := by decide

/-- One word with its lowest and one with its highest reserved bit set, of each format (R72 to R75). -/
theorem test_decode_reserved :
    decode 0x00000001 = .error .reservedBits ∧
    decode 0x01800000 = .error .reservedBits ∧
    decode 0x03000100 = .error .reservedBits ∧
    decode 0x28800000 = .error .reservedBits ∧
    decode 0x02010000 = .error .reservedBits ∧
    decode 0x20800000 = .error .reservedBits ∧
    decode 0x11200001 = .error .reservedBits ∧
    decode 0x11800000 = .error .reservedBits ∧
    decode 0x30000100 = .error .reservedBits ∧
    decode 0x31000001 = .error .reservedBits := by decide

theorem test_decode_ctlwr_operand :
    decode 0x30000002 = .error .ctlwrOperand ∧
    decode 0x30000081 = .error .ctlwrOperand := by decide

/-- The host's numbering of a row's bits (opcode_table.json): GFMUL 0x02, 0x80. -/
theorem test_decodeTableWord : decodeTableWord 32 0x02000280 = some (.gfmul 0x02 0x80) := by decide

/-! ## The commands, one step each -/

/-- Program P1 step 1, with entries of R110. -/
theorem test_tinit :
    after (exec .tinit State.reset) (fun t => (statusWord t, byteAt t.exp 254, byteAt t.exp 255, byteAt t.log 1,
      byteAt t.log 0xFF)) = some (0x00007100, 0x8E, 0x01, 0x00, 0xAF) := by decide +kernel

/-- `0x53 · 0xCA` is 0x8F here (1 in the AES field). -/
theorem test_gfmul : seen (exec (.gfmul 0x53 0xCA) tabled) = some (0x8F, 0x00007100) := by decide +kernel

/-- A log sum of 507 wraps to 252; the least sum that wraps is 255 (`0x8E · 0x02`). -/
theorem test_gfmul_wraps :
    seen (exec (.gfmul 0x47 0x8E) tabled) = some (0xAD, 0x00007100) ∧
    seen (exec (.gfmul 0x8E 0x02) tabled) = some (0x01, 0x00007100) := by decide +kernel

theorem test_exprd_edge : seen (exec (.exprd 255) tabled) = some (0x01, 0x00007100) := by decide +kernel

/-- Program P1 step 3. -/
theorem test_logrd_zero : seen (exec (.logrd 0) { tabled with result := 0x1D }) = some (0x1D, 0x00007113) := by
  decide +kernel

/-- E_LOGZERO is checked before E_NOTABLE. -/
theorem test_logrd_order :
    seen (exec (.logrd 0) State.reset) = some (0, 0x00007013) ∧
    seen (exec (.logrd 1) State.reset) = some (0, 0x00007014) := by decide

/-- Program P4 step 17. -/
theorem test_msgclr : seen (exec .msgclr { paired with sticky := true }) = some (0, 0x00007110) := by decide

/-- The bits go in most significant first, after the ones that are there; 16 and 16 bits are exactly 32. -/
theorem test_msgput :
    after (exec (.msgput 16 0x8001) { loaded with msglen := 16 }) (fun t => (t.msg.toList, statusWord t)) =
      some ((msgOf 0x22008001).toList, 0x00207100) := by decide +kernel

/-- 95_test_vectors.md 2.2: n = 0, n = 17, v wider than n, one bit past 32. -/
theorem test_msgput_errors :
    (exec (.msgput 0 0) State.reset |> (after · (·.lasterr))) = some .range ∧
    (exec (.msgput 17 0) State.reset |> (after · (·.lasterr))) = some .range ∧
    (exec (.msgput 4 0x1F) State.reset |> (after · (·.lasterr))) = some .range ∧
    (exec (.msgput 1 1) { loaded with msglen := 32 } |> (after · (·.lasterr))) = some .msgovf := by decide

/-- A bit above MSGLEN is no part of the last codeword (R131), whatever MSG holds there. -/
theorem test_cwrd :
    seen (exec (.cwrd 2) { loaded with msg := msgOf 0x220059FF }) = some (0x50, 0x00147100) := by decide +kernel

theorem test_cwrd_range : seen (exec (.cwrd 3) loaded) = some (0, 0x00147112) := by decide

/-- Program P2 step 5. -/
theorem test_rsgen : seen (exec .rsgen loaded) = some (0x0000E32A, 0x00147300) := by decide +kernel

/-- E_NOTABLE is checked before E_NOMSG. -/
theorem test_rsgen_order :
    (after (exec .rsgen State.reset) (·.lasterr)) = some .notable ∧
    (after (exec .rsgen tabled) (·.lasterr)) = some .nomsg := by decide

theorem test_parrd : seen (exec .parrd paired) = some (0x0000E32A, 0x00147300) := by decide

theorem test_parrd_stale : seen (exec .parrd loaded) = some (0, 0x00147117) := by decide

/-- The row is the first operand: (10, 1) is a data cell and (1, 8) a format cell. -/
theorem test_class :
    seen (exec (.classify 10 1) State.reset) = some (1, 0x00007000) ∧
    seen (exec (.classify 1 8) { State.reset with result := 1 }) = some (0, 0x00007000) := by decide

theorem test_class_range : seen (exec (.classify 11 0) State.reset) = some (0, 0x00007012) := by decide

theorem test_mclr :
    rowsAfter (exec .mclr finished) = some (List.replicate 11 0) ∧
    seen (exec .mclr finished) = some (0, 0x00140300) := by decide +kernel

theorem test_mfind : rowsAfter (exec .mfind (atPhase .cleared [])) = some (rowsFinder.map (BitVec.ofNat 32)) := by
  decide +kernel

theorem test_mfind_done : seen (exec .mfind finished) = some (0, 0x00145318) := by decide

theorem test_mtime : rowsAfter (exec .mtime (atPhase .finder rowsFinder)) = some (rowsTiming.map (BitVec.ofNat 32)) := by
  decide +kernel

theorem test_mfmt : rowsAfter (exec .mfmt (atPhase .timing rowsTiming)) = some (rowsFormat.map (BitVec.ofNat 32)) := by
  decide +kernel

theorem test_mplace :
    rowsAfter (exec .mplace (atPhase .format rowsFormat)) = some (rowsPlaced.map (BitVec.ofNat 32)) ∧
    seen (exec .mplace (atPhase .format rowsFormat)) = some (0x00000024, 0x00144300) := by decide +kernel

/-- Program P3 steps 12 and 14: 24 message bits, once in strict mode and once not. -/
theorem test_mplace_capacity :
    seen (exec .mplace { atPhase .format rowsFormat with msglen := 24, strict := true }) = some (0, 0x0018371A) ∧
    seen (exec .mplace { atPhase .format rowsFormat with msglen := 24 }) = some (0x00040024, 0x00184320) := by
  decide +kernel

theorem test_mmask : rowsAfter (exec .mmask (atPhase .placed rowsPlaced)) = some (rowsDone.map (BitVec.ofNat 32)) := by
  decide +kernel

/-- Program P2 step 6, at PHASE = 7 with a matrix of all ones, which MBUILD clears. -/
theorem test_mbuild :
    rowsAfter (exec .mbuild (atPhase .noMatrix (List.replicate 11 0x7FF))) = some (rowsDone.map (BitVec.ofNat 32)) ∧
    seen (exec .mbuild (atPhase .noMatrix (List.replicate 11 0x7FF))) = some (0x00000024, 0x00145300) := by
  decide +kernel

/-- A failing MBUILD leaves M and PHASE. -/
theorem test_mbuild_stale :
    rowsAfter (exec .mbuild { finished with parValid := false }) = some (rowsDone.map (BitVec.ofNat 32)) ∧
    seen (exec .mbuild { finished with parValid := false }) = some (0, 0x00145117) := by decide +kernel

theorem test_mrdrow : seen (exec (.mrdrow 7) finished) = some (0x700, 0x00145300) := by decide +kernel

/-- E_RANGE is checked before E_NOTREADY. -/
theorem test_mrdrow_order :
    (after (exec (.mrdrow 11) State.reset) (·.lasterr)) = some .range ∧
    (after (exec (.mrdrow 10) State.reset) (·.lasterr)) = some .notready := by decide

theorem test_nop : seen (exec .nop { tabled with lasterr := .logzero, sticky := true }) = some (0, 0x00007110) := by decide

theorem test_ctlwr :
    seen (exec (.ctlwr 1) State.reset) = some (0, 0x00007400) ∧
    seen (exec (.ctlwr 0) { State.reset with strict := true }) = some (0, 0x00007000) := by decide

/-- 95_test_vectors.md 2.4: STATUS 0x00185330 becomes 0x00185300. -/
theorem test_stclr :
    seen (exec .stclr { finished with msglen := 24, trunc := true, sticky := true }) = some (0, 0x00185300) := by decide

/-- Program P4 step 1, as a step: an illegal word, from reset. -/
theorem test_step_illegal :
    after (step (State.reset.withFetchWord 32 0xFFFFFFFF)) (fun t => (statusWord t, t.pos)) = some (0x00007011, 1) := by
  decide

theorem test_step_fetchWord : seen (step (tabled.withFetchWord 32 0x03000019)) = some (0x03, 0x00007100) := by
  decide +kernel

/-! ## The host's side -/

/-- 95_test_vectors.md 2.2: a group of 3 and a group of 2 digits, and a leading zero in a group. -/
theorem test_hostBits :
    hostBits "12345".toList = .ok ((List.range 24).map fun k => (0xA3DAD0 : Nat).testBit (23 - k)) ∧
    hostBits "0".toList = .ok ((List.range 20).map fun k => (0x20000 : Nat).testBit (19 - k)) := by decide +kernel

/-- 60: the groups of "12345" are 123 and 45 (R213), at bits 3 and 13, and its digits take 17 bits. -/
theorem witness_HostBitsSpellTheDigits :
    decimalValue "123".toList = 123 ∧ decimalValue "007".toList = 7 ∧ groupBits 5 = 17 ∧ groupBits 7 = 24 ∧
    chunkValue ((((List.range 24).map fun k => (0xA3DAD0 : Nat).testBit (23 - k)).drop 13).take 7) = 45 := by
  decide +kernel

theorem test_hostBits_invalid :
    hostBits "1a".toList = .error .nonDigit ∧ hostBits [] = .error .empty ∧
    hostBits "12345678".toList = .error .countOverflow := by decide +kernel

theorem test_assemble :
    assemble ["GFMUL 0x02, 0x80".toList, "MSGLOAD 00100010000000000000".toList] =
      .ok [0x02000280, 0x10000000, 0x11102200, 0x11040000] := by decide +kernel

/-! ## Witnesses: states and operands that meet the hypotheses of the statements -/

theorem tabled_tables : TablesHold tabled.exp tabled.log := built_tables_hold State.reset.log

theorem default_formatMap : FormatMapOk Config.formatMapDefault := by
  unfold FormatMapOk
  decide

/-- The completed "1" symbol has the invariant, with every flag that a clause asks for set. -/
theorem finished_inv : Inv finished where
  tables _ := tabled_tables
  msglen := by decide
  parity _ := by decide +kernel
  matrix := by
    have h : ∀ r c : Fin 11, isData r c = false →
        cell (matrixOf rowsDone) r c = templateCell Config.formatWordDefault Config.formatMapDefault r c := by
      decide +kernel
    intro r c hr hc
    exact h ⟨r, by omega⟩ ⟨c, by omega⟩
  sticky h := absurd rfl h
  formatMap := default_formatMap
  pos := by decide

/-- The "1" symbol before its mask, with MMASK to run. -/
def placing : State := { atPhase .placed rowsPlaced with prog := [.issue 0x26000000] }

theorem placing_inv : Inv placing where
  tables _ := tabled_tables
  msglen := by decide
  parity _ := by decide +kernel
  matrix := by
    have h : ∀ r c : Fin 11, isData r c = false →
        cell (matrixOf rowsPlaced) r c = templateCell Config.formatWordDefault Config.formatMapDefault r c := by
      decide +kernel
    intro r c hr hc
    exact h ⟨r, by omega⟩ ⟨c, by omega⟩
  sticky h := absurd rfl h
  formatMap := default_formatMap
  pos := by decide

/-- 1. -/
theorem witness_DecodeAfterEncode : (Instr.msgput 31 0xFFFF).wellFormed = true ∧ (Instr.ctlwr 1).wellFormed = true := by
  decide

/-- 2, 6. -/
theorem witness_EncodeAfterDecode : decode 0x111FFFFF = .ok (.msgput 31 0xFFFF) := by decide

/-- 3. -/
theorem witness_WordSpellsTheRow :
    Instr.gfmul 0 0 ∈ tableRows ∧ (0x0200FFFF : Word) &&& tableMask (.gfmul 0 0) = tableMatch (.gfmul 0 0) := by decide

/-- 4: both ends of every range of undefined opcodes. -/
theorem witness_UndefinedOpcodes :
    [0x05000000, 0x0F000000, 0x15000000, 0x1F000000, 0x29000000, 0x2F000000, 0x32000000, 0xFF000000].map
      (fun w => (fieldOp w).toNat) = [0x05, 0x0F, 0x15, 0x1F, 0x29, 0x2F, 0x32, 0xFF] := by decide

/-- 4: a defined opcode of each format with a reserved bit set. -/
theorem witness_ReservedBits :
    (fieldOp 0x31800000).toNat = 0x31 ∧ (0x31800000 : Word).extractLsb' 0 24 ≠ 0 ∧
    (fieldOp 0x30000100).toNat = 0x30 ∧ (0x30000100 : Word).extractLsb' 8 16 ≠ 0 ∧
    (fieldOp 0x20800000).toNat = 0x20 ∧ (0x20800000 : Word).extractLsb' 16 8 ≠ 0 ∧
    (fieldOp 0x11200000).toNat = 0x11 ∧ (0x11200000 : Word).extractLsb' 21 3 ≠ 0 ∧
    (fieldOp 0x30000002).toNat = 0x30 ∧ (0x30000002 : Word).extractLsb' 1 7 ≠ 0 := by decide

/-- 4: a word in a listed class, and one in none, each one bit from the other. -/
theorem witness_ListedIllegal : ListedIllegal 0x30000002 ∧ ¬ ListedIllegal 0x30000000 := by
  unfold ListedIllegal
  decide

/-- 6: a program whose next operation issues a command, and one whose next operation issues an illegal word. -/
theorem witness_StepRunsTheIssued :
    (hosting (.issue 0x01000000)).prog[(hosting (.issue 0x01000000)).pos]? = some (.issue 0x01000000) ∧
    decode 0x01000000 = .ok .tinit ∧
    (hosting (.issue 0x01000001)).prog[(hosting (.issue 0x01000001)).pos]? = some (.issue 0x01000001) ∧
    decode 0x01000001 = .error .reservedBits := by decide

/-- 7, 9, 10, 11: a word that fails and one that completes, each with its next state. -/
theorem witness_Outcomes :
    (∃ t, issue 0x04000000 State.reset = .next t ∧ t.lasterr ≠ .ok) ∧
    (∃ t, issue 0x31000000 State.reset = .next t ∧ t.lasterr = .ok ∧ decode 0x31000000 = .ok .stclr) ∧
    (∃ t, issue 0x25000000 (atPhase .format rowsFormat) = .next t ∧ t.lasterr = .ok ∧
      decode 0x25000000 = .ok .mplace) :=
  ⟨⟨_, rfl, by decide⟩, ⟨_, rfl, rfl, by decide⟩, ⟨_, rfl, rfl, by decide⟩⟩

/-- 8: every code is reported by some command (E_ILLEGAL by no command, but by an illegal word). -/
theorem witness_EachErrorCode :
    after (exec (.cwrd 0) State.reset) (·.lasterr) = some .range ∧
    after (exec (.logrd 0) State.reset) (·.lasterr) = some .logzero ∧
    after (exec (.exprd 0) State.reset) (·.lasterr) = some .notable ∧
    after (exec .rsgen tabled) (·.lasterr) = some .nomsg ∧
    after (exec (.msgput 16 0) { State.reset with msglen := 17 }) (·.lasterr) = some .msgovf ∧
    after (exec .mbuild State.reset) (·.lasterr) = some .nopar ∧
    after (exec .mmask State.reset) (·.lasterr) = some .seq ∧
    after (exec (.mrdrow 10) State.reset) (·.lasterr) = some .notready ∧
    after (exec .mbuild { paired with msglen := 21, strict := true }) (·.lasterr) = some .capacity ∧
    after (issue 0xFFFFFFFF State.reset) (·.lasterr) = some .illegal := by decide

/-- 12, 21 to 24, 26, 27, 32, 33: the tables built. -/
theorem witness_TablesBuilt :
    tabled.tblValid = true ∧ TablesHold tabled.exp tabled.log ∧ loaded.tblValid = true ∧ loaded.msglen ≠ 0 :=
  ⟨rfl, tabled_tables, rfl, by decide⟩

/-- 13, 21, 22: the flags clear, and PHASE = 3 with PAR_VALID = 0. -/
theorem witness_FlagsClear :
    State.reset.tblValid = false ∧ State.reset.parValid = false ∧
    { State.reset with phase := .format }.phase = .format := ⟨rfl, rfl, rfl⟩

/-- 14: every move of PHASE happens. -/
theorem witness_PhaseMoves :
    after (exec .mclr State.reset) (·.phase) = some .cleared ∧
    after (exec .mfind (atPhase .cleared [])) (·.phase) = some .finder ∧
    after (exec .mtime (atPhase .finder rowsFinder)) (·.phase) = some .timing ∧
    after (exec .mfmt (atPhase .timing rowsTiming)) (·.phase) = some .format ∧
    after (exec .mplace (atPhase .format rowsFormat)) (·.phase) = some .placed ∧
    after (exec .mmask (atPhase .placed rowsPlaced)) (·.phase) = some .done ∧
    after (exec .mbuild paired) (·.phase) = some .done := by decide

/-- 15: a finished matrix, and a command that changes it. -/
theorem witness_Finished :
    finished.phase = .done ∧ ∃ t, exec .mclr finished = .next t ∧ t.matrix ≠ finished.matrix :=
  ⟨rfl, _, rfl, by decide⟩

/-- 16: a state with an operation to run and one at the end of its program, each with its next state. -/
theorem witness_StepMovesOn :
    (hosting .readStatus).pos < (hosting .readStatus).prog.length ∧ (∃ t, step (hosting .readStatus) = .next t) ∧
    State.reset.prog.length ≤ State.reset.pos ∧ (∃ t, step State.reset = .next t) :=
  ⟨by decide, ⟨_, rfl⟩, by decide, ⟨_, rfl⟩⟩

/-- 18, 59: the invariant on a state whose flags are all set, PHASE = 5, with an operation to run. -/
theorem witness_Invariant :
    Inv { finished with prog := [.issue 0x28000000] } ∧ finished.phase = .done ∧
    ∃ t, step { finished with prog := [.issue 0x28000000] } = .next t :=
  ⟨{ tables := finished_inv.tables, msglen := finished_inv.msglen, parity := finished_inv.parity,
     matrix := finished_inv.matrix, sticky := finished_inv.sticky, formatMap := finished_inv.formatMap,
     pos := Nat.zero_le _ }, rfl, _, rfl⟩

/-- 19: two different states that look alike, and a state at PHASE other than 5 with its two next states. -/
theorem witness_SameVisible :
    SameVisible State.reset { State.reset with par := #v[1, 2], matrix := matrixOf [1] } ∧
    State.reset ≠ { State.reset with par := #v[1, 2], matrix := matrixOf [1] } ∧
    (State.reset.phase ≠ .done ∧ (∃ t, issue 0x21000000 State.reset = .next t) ∧
      ∃ u, issue 0x21000000 { State.reset with matrix := matrixOf [1] } = .next u) := by
  refine ⟨?_, fun h => absurd (congrArg State.par h) (by decide), by decide, ⟨_, rfl⟩, ⟨_, rfl⟩⟩
  exact {
    tblValid := rfl, msglen := rfl, parValid := rfl, phase := rfl, strict := rfl, trunc := rfl, result := rfl
    lasterr := rfl, sticky := rfl, formatWord := rfl, formatMap := rfl, prog := rfl, pos := rfl, reads := rfl
    exp := fun _ => rfl, log := fun _ _ _ => rfl, msg := fun _ _ => rfl
    par := fun h => absurd h (by decide), matrix := fun h => absurd rfl h }

/-- 20: the last value that is not reduced and the first that is. -/
theorem witness_DoublingStep : xtime 127 = 254 ∧ xtime 128 = 0x1D ∧ xtime 255 = 0xE3 := by decide

/-- 23, 24, 27: operands that are and that are not 0. -/
theorem witness_Operands : (0 : Byte) = 0 ∧ (0x53 : Byte) ≠ 0 ∧ (0xCA : Byte) ≠ 0 := by decide

/-- 28, 31: the last codeword of a 20-bit message, its last bit, and the first index past it. -/
theorem witness_Codewords :
    2 < (20 + 7) / 8 ∧ (2 : Byte).toNat < (loaded.msglen + 7) / 8 ∧ (3 : Byte).toNat ≥ (loaded.msglen + 7) / 8 := by decide

/-- 30: n at 0, 1, 16 and 17, v just too wide, and the message exactly full and one past it. -/
theorem witness_Msgput :
    (0 : BitVec 5).toNat = 0 ∧ (17 : BitVec 5).toNat > 16 ∧ (16 : BitVec 16) >>> (4 : BitVec 5).toNat ≠ 0 ∧
    (15 : BitVec 16) >>> (4 : BitVec 5).toNat = 0 ∧ 1 ≤ (1 : BitVec 5).toNat ∧ (16 : BitVec 5).toNat ≤ 16 ∧
    loaded.msglen + (12 : BitVec 5).toNat ≤ 32 ∧ loaded.msglen + (13 : BitVec 5).toNat > 32 := by decide

/-- 34: a parity that is the remainder, and two messages of one length. -/
theorem witness_Parity :
    IsParityOf #v[0x03, 0x20] [0x01] ∧ ([0x12, 0x34] : List Byte).length = ([0x56, 0x78] : List Byte).length :=
  ⟨⟨[0x01], rfl, by decide⟩, rfl⟩

/-- 34: the parity of two codewords (95_test_vectors.md 2.2). -/
theorem test_parity_of_two : rsParity fieldProduct [0x12, 0x34] = #v[0x7C, 0x40] := by decide +kernel

/-- 35: a completing RSGEN. -/
theorem witness_Parrd :
    State.reset.parValid = false ∧ paired.parValid = true ∧ ∃ t, exec .rsgen loaded = .next t ∧ t.lasterr = .ok :=
  ⟨rfl, rfl, _, rfl, rfl⟩

/-- 37, 45: the greatest coordinate in the matrix and the least outside it. -/
theorem witness_Coordinates : (10 : Byte).toNat ≤ 10 ∧ (11 : Byte).toNat > 10 := by decide

/-- 40 to 42, 44: a state at each phase that a phase command needs, and one at none of them. -/
theorem witness_Phases :
    (atPhase .cleared []).phase = .cleared ∧ (atPhase .finder rowsFinder).phase = .finder ∧
    (atPhase .timing rowsTiming).phase = .timing ∧ FormatMapOk (atPhase .timing rowsTiming).formatMap ∧
    (atPhase .placed rowsPlaced).phase = .placed ∧
    (State.reset.phase ≠ .cleared ∧ State.reset.phase ≠ .finder ∧ State.reset.phase ≠ .timing ∧
      State.reset.phase ≠ .format ∧ State.reset.phase ≠ .placed) :=
  ⟨rfl, rfl, rfl, default_formatMap, rfl, by decide⟩

/-- 43, 46: every branch of MPLACE and MBUILD; 36 placement bits fit in strict mode and 37 do not. -/
theorem witness_Placement :
    let s := atPhase .format rowsFormat
    (s.phase = .format ∧ s.parValid = true ∧ ¬ (s.strict = true ∧ s.msglen + 16 > 36) ∧ s.msglen ≤ 32) ∧
    (let u := { s with strict := true }; u.strict = true ∧ u.msglen + 16 = 36) ∧
    (let u := { s with strict := true, msglen := 21 }; u.strict = true ∧ u.msglen + 16 > 36 ∧ u.parValid = true) ∧
    (let u := { s with parValid := false }; u.phase = .format ∧ u.parValid = false) := by decide

/-- 47: a state with the invariant whose step, an MMASK, ends at PHASE = 5; MPLACE and MMASK with their next states; and
two states with one message and one PAR whose MBUILDs complete. -/
theorem witness_FixedPatterns :
    (Inv placing ∧ ∃ t, step placing = .next t ∧ t.phase = .done) ∧
    (∃ t, exec .mplace (atPhase .format rowsFormat) = .next t) ∧ (∃ t, exec .mmask placing = .next t) ∧
    (∃ t, exec .mbuild paired = .next t ∧ t.lasterr = .ok) ∧
    (∃ t, exec .mbuild { finished with msg := msgOf 0x22000001, exp := State.reset.exp } = .next t ∧ t.lasterr = .ok) ∧
    (∀ k, k < 20 → bitAt (msgOf 0x22000000) k = bitAt (msgOf 0x22000001) k) ∧ isData 8 8 = false :=
  ⟨⟨placing_inv, _, rfl, by decide +kernel⟩, ⟨_, rfl⟩, ⟨_, rfl⟩, ⟨_, rfl, by decide +kernel⟩,
    ⟨_, rfl, by decide +kernel⟩, by decide +kernel, rfl⟩

/-- 48: the parameters at their defaults. -/
theorem witness_Defaults :
    finished.formatWord = 0x4445 ∧ finished.formatMap = Config.formatMapDefault := ⟨rfl, rfl⟩

/-- 50: opcode 0x30 with and without a bit of `w[23:1]`. -/
theorem witness_Ctlwr :
    fieldOp 0x30000001 = 0x30 ∧ (0x30000001 : Word).extractLsb' 1 23 = 0 ∧ (0x30800001 : Word).extractLsb' 1 23 ≠ 0 ∧
    (Instr.ctlwr 0).wellFormed = true := by decide

/-- 52, 53: the two port reads as the next operation, each with its next state. -/
theorem witness_PortReads :
    (hosting .readResult).prog[(hosting .readResult).pos]? = some .readResult ∧
    (∃ t, step (hosting .readResult) = .next t) ∧
    (hosting .readStatus).prog[(hosting .readStatus).pos]? = some .readStatus ∧
    (∃ t, step (hosting .readStatus) = .next t) :=
  ⟨rfl, ⟨_, rfl⟩, rfl, ⟨_, rfl⟩⟩

/-- 9, 52, 54, 55: a bus access at the port window's first byte, at each of its words, at its last byte, and past it. -/
theorem witness_BusWindow :
    (∀ a : Nat, (hosting (.busRead 4 (Config.portBase + a))).prog[0]? = some (.busRead 4 (Config.portBase + a))) ∧
    (∀ a : Nat, (hosting (.busWrite 4 (Config.portBase + a) 0)).prog[0]? = some (.busWrite 4 (Config.portBase + a) 0)) ∧
    (15 < 16 ∧ 15 % 4 ≠ 0 ∧ 12 < 16 ∧ 12 % 4 = 0 ∧ Config.portBase + 16 ≤ Config.portBase + 16) :=
  ⟨fun _ => rfl, fun _ => rfl, by decide, by decide, by decide, by decide, Nat.le_refl _⟩

/-- 54: a whole-word read of STATUS through the window, wherever it is. -/
theorem test_busRead_status :
    after (step (hosting (.busRead 4 (Config.portBase + 8)))) (·.reads) = some [0x00007000] := by
  rw [step_op (op := .busRead 4 (Config.portBase + 8)) rfl, hostOp, busAccess, if_neg (by omega), if_neg (by omega),
    Nat.add_sub_cancel_left, if_neg (by decide)]
  decide

/-- 56: the reset event as the next operation. -/
theorem witness_ResetEvent : (hosting .reset).prog[(hosting .reset).pos]? = some .reset := rfl

/-- 57, 59, 60: a digit string that is encoded, and a strict state with a string that fits and one that is too long. -/
theorem witness_HostEncode :
    (∃ bs, hostBits "1".toList = .ok bs) ∧ Inv finished ∧ finished.strict = false ∧
    "1".toList.length ≤ 4 ∧ (∃ bs, hostBits "12345".toList = .ok bs) ∧ 5 ≤ "12345".toList.length ∧
    Inv { finished with strict := true } ∧ { finished with strict := true }.strict = true :=
  ⟨⟨_, rfl⟩, finished_inv, rfl, by decide, ⟨_, rfl⟩, by decide,
    { tables := finished_inv.tables, msglen := finished_inv.msglen, parity := finished_inv.parity,
      matrix := finished_inv.matrix, sticky := finished_inv.sticky, formatMap := finished_inv.formatMap,
      pos := finished_inv.pos }, rfl⟩

/-- 58: the shortest and the longest bit string. -/
theorem witness_Msgload :
    1 ≤ [true].length ∧ [true].length ≤ 32 ∧ (List.replicate 32 true).length ≤ 32 := by decide

end Sys2Proof.Tests
end

section
/-! SUPPORT. All that a command, an issued word and a step can do, said once with every guard: a command fails with a
code (`Fails`) or completes with an effect (`Completes`). Later proofs split on these and unfold no command. -/

namespace Sys2Proof.Machine

/-! ## The operand checks and the capacity check as propositions -/

theorem countOutOfRange_iff (n : BitVec 5) : countOutOfRange n = true ↔ n.toNat = 0 ∨ 16 < n.toNat := by
  simp only [countOutOfRange, Bool.or_eq_true, beq_iff_eq, decide_eq_true_eq, gt_iff_lt]

theorem valueTooWide_iff (n : BitVec 5) (v : BitVec 16) : valueTooWide n v = true ↔ v >>> n.toNat ≠ 0 := by
  simp only [valueTooWide, bne_iff_ne]

theorem coordOutOfRange_iff (b : Byte) : coordOutOfRange b = true ↔ 10 < b.toNat := by
  simp only [coordOutOfRange, decide_eq_true_eq, gt_iff_lt]

theorem capacityFails_iff (s : State) : capacityFails s = true ↔ s.strict = true ∧ 36 < s.msglen + 16 := by
  simp only [capacityFails, placementTotal, Config.parityBits, Config.dataCells, Bool.and_eq_true, decide_eq_true_eq,
    gt_iff_lt]

/-! ## How a command ends -/

/-- The command `i` fails on `s` with a code: each command's checks in their order (R230, R232). -/
inductive Fails (s : State) : Instr → ErrCode → Prop
  | gfmul_notable (a b : Byte) (ht : s.tblValid = false) : Fails s (.gfmul a b) .notable
  | exprd_notable (b : Byte) (ht : s.tblValid = false) : Fails s (.exprd b) .notable
  | logrd_logzero : Fails s (.logrd 0) .logzero
  | logrd_notable (b : Byte) (hb : b ≠ 0) (ht : s.tblValid = false) : Fails s (.logrd b) .notable
  | msgput_range (n : BitVec 5) (v : BitVec 16) (h : (n.toNat = 0 ∨ 16 < n.toNat) ∨ v >>> n.toNat ≠ 0) :
      Fails s (.msgput n v) .range
  | msgput_msgovf (n : BitVec 5) (v : BitVec 16) (hn : ¬ (n.toNat = 0 ∨ 16 < n.toNat)) (hv : v >>> n.toNat = 0)
      (h : 32 < s.msglen + n.toNat) : Fails s (.msgput n v) .msgovf
  | cwrd_range (b : Byte) (h : codewordCount s.msglen ≤ b.toNat) : Fails s (.cwrd b) .range
  | rsgen_notable (ht : s.tblValid = false) : Fails s .rsgen .notable
  | rsgen_nomsg (ht : s.tblValid = true) (hl : s.msglen = 0) : Fails s .rsgen .nomsg
  | parrd_nopar (hp : s.parValid = false) : Fails s .parrd .nopar
  | classify_range (a b : Byte) (h : 10 < a.toNat ∨ 10 < b.toNat) : Fails s (.classify a b) .range
  | mfind_seq (h : s.phase ≠ .cleared) : Fails s .mfind .seq
  | mtime_seq (h : s.phase ≠ .finder) : Fails s .mtime .seq
  | mfmt_seq (h : s.phase ≠ .timing) : Fails s .mfmt .seq
  | mplace_seq (h : s.phase ≠ .format) : Fails s .mplace .seq
  | mplace_nopar (h : s.phase = .format) (hp : s.parValid = false) : Fails s .mplace .nopar
  | mplace_capacity (h : s.phase = .format) (hp : s.parValid = true) (hc : s.strict = true ∧ 36 < s.msglen + 16) :
      Fails s .mplace .capacity
  | mmask_seq (h : s.phase ≠ .placed) : Fails s .mmask .seq
  | mrdrow_range (b : Byte) (h : 10 < b.toNat) : Fails s (.mrdrow b) .range
  | mrdrow_notready (b : Byte) (hb : b.toNat ≤ 10) (h : s.phase ≠ .done) : Fails s (.mrdrow b) .notready
  | mbuild_nopar (hp : s.parValid = false) : Fails s .mbuild .nopar
  | mbuild_capacity (hp : s.parValid = true) (hc : s.strict = true ∧ 36 < s.msglen + 16) : Fails s .mbuild .capacity

/-- The matrix that MBUILD leaves (R174): the phases in order from the cleared matrix, so that it does not depend on
what M held (R175 (f)). -/
def builtMatrix (s : State) : Matrix :=
  applyMask (placeBits (placementBits s) (drawFormat s.formatWord s.formatMap (drawTiming (drawFinder clearedMatrix))))

/-- What a placement at the end of which M is `m` and PHASE is `p` leaves (R171): also TRUNC and the report. -/
def State.setPlacement (m : Matrix) (p : Phase) (s : State) : State :=
  ((s.setMatrix m p).setTrunc (decide (droppedCount s > 0))).setResult (placementReport s)

/-! One lemma per field of a placement, as in Laws/State.lean. -/

@[simp] theorem State.setPlacement_exp (s : State) (m : Matrix) (p : Phase) : (s.setPlacement m p).exp = s.exp := rfl
@[simp] theorem State.setPlacement_log (s : State) (m : Matrix) (p : Phase) : (s.setPlacement m p).log = s.log := rfl
@[simp] theorem State.setPlacement_tblValid (s : State) (m : Matrix) (p : Phase) :
    (s.setPlacement m p).tblValid = s.tblValid := rfl
@[simp] theorem State.setPlacement_msg (s : State) (m : Matrix) (p : Phase) : (s.setPlacement m p).msg = s.msg := rfl
@[simp] theorem State.setPlacement_msglen (s : State) (m : Matrix) (p : Phase) :
    (s.setPlacement m p).msglen = s.msglen := rfl
@[simp] theorem State.setPlacement_par (s : State) (m : Matrix) (p : Phase) : (s.setPlacement m p).par = s.par := rfl
@[simp] theorem State.setPlacement_parValid (s : State) (m : Matrix) (p : Phase) :
    (s.setPlacement m p).parValid = s.parValid := rfl
@[simp] theorem State.setPlacement_strict (s : State) (m : Matrix) (p : Phase) :
    (s.setPlacement m p).strict = s.strict := rfl
@[simp] theorem State.setPlacement_lasterr (s : State) (m : Matrix) (p : Phase) :
    (s.setPlacement m p).lasterr = s.lasterr := rfl
@[simp] theorem State.setPlacement_sticky (s : State) (m : Matrix) (p : Phase) :
    (s.setPlacement m p).sticky = s.sticky := rfl
@[simp] theorem State.setPlacement_formatWord (s : State) (m : Matrix) (p : Phase) :
    (s.setPlacement m p).formatWord = s.formatWord := rfl
@[simp] theorem State.setPlacement_formatMap (s : State) (m : Matrix) (p : Phase) :
    (s.setPlacement m p).formatMap = s.formatMap := rfl
@[simp] theorem State.setPlacement_prog (s : State) (m : Matrix) (p : Phase) : (s.setPlacement m p).prog = s.prog := rfl
@[simp] theorem State.setPlacement_pos (s : State) (m : Matrix) (p : Phase) : (s.setPlacement m p).pos = s.pos := rfl
@[simp] theorem State.setPlacement_reads (s : State) (m : Matrix) (p : Phase) :
    (s.setPlacement m p).reads = s.reads := rfl
@[simp] theorem State.setPlacement_matrix (s : State) (m : Matrix) (p : Phase) : (s.setPlacement m p).matrix = m := rfl
@[simp] theorem State.setPlacement_phase (s : State) (m : Matrix) (p : Phase) : (s.setPlacement m p).phase = p := rfl
@[simp] theorem State.setPlacement_result (s : State) (m : Matrix) (p : Phase) :
    (s.setPlacement m p).result = placementReport s := by
  simp [State.setPlacement]
@[simp] theorem State.setPlacement_trunc (s : State) (m : Matrix) (p : Phase) :
    (s.setPlacement m p).trunc = decide (droppedCount s > 0) := by
  simp [State.setPlacement]

/-- The command `i` completes on `s` with the state `t`, but for LASTERR, which completing writes (R25). -/
inductive Completes (s : State) : Instr → State → Prop
  | nop : Completes s .nop s
  | tinit_again (ht : s.tblValid = true) : Completes s .tinit s
  | tinit (ht : s.tblValid = false) : Completes s .tinit (s.setTables buildExp (buildLog buildExp s.log))
  | gfmul (a b : Byte) (ht : s.tblValid = true) :
      Completes s (.gfmul a b) (s.setResult (zextByte (gmul s.exp s.log a b)))
  | exprd (b : Byte) (ht : s.tblValid = true) : Completes s (.exprd b) (s.setResult (zextByte (byteAt s.exp b.toNat)))
  | logrd (b : Byte) (hb : b ≠ 0) (ht : s.tblValid = true) :
      Completes s (.logrd b) (s.setResult (zextByte (byteAt s.log b.toNat)))
  | msgclr : Completes s .msgclr (s.setMsglen 0)
  | msgput (n : BitVec 5) (v : BitVec 16) (hn : ¬ (n.toNat = 0 ∨ 16 < n.toNat)) (hv : v >>> n.toNat = 0)
      (h : s.msglen + n.toNat ≤ 32) :
      Completes s (.msgput n v) (s.setMsg (appendBits s.msg s.msglen (putBits n v)) (s.msglen + n.toNat))
  | cwrd (b : Byte) (h : b.toNat < codewordCount s.msglen) :
      Completes s (.cwrd b) (s.setResult (zextByte ((pack s.msg s.msglen).getD b.toNat 0)))
  | rsgen (ht : s.tblValid = true) (hl : s.msglen ≠ 0) :
      Completes s .rsgen ((s.setPar (messageParity s)).setResult (parityWord (messageParity s)))
  | parrd (hp : s.parValid = true) : Completes s .parrd (s.setResult (parityWord s.par))
  | classify (a b : Byte) (ha : a.toNat ≤ 10) (hb : b.toNat ≤ 10) :
      Completes s (.classify a b) (s.setResult (zextBit (isData a.toNat b.toNat)))
  | mclr : Completes s .mclr (s.setMatrix clearedMatrix .cleared)
  | mfind (h : s.phase = .cleared) : Completes s .mfind (s.setMatrix (drawFinder s.matrix) .finder)
  | mtime (h : s.phase = .finder) : Completes s .mtime (s.setMatrix (drawTiming s.matrix) .timing)
  | mfmt (h : s.phase = .timing) :
      Completes s .mfmt (s.setMatrix (drawFormat s.formatWord s.formatMap s.matrix) .format)
  | mplace (h : s.phase = .format) (hp : s.parValid = true) (hc : ¬ (s.strict = true ∧ 36 < s.msglen + 16)) :
      Completes s .mplace (s.setPlacement (placeBits (placementBits s) s.matrix) .placed)
  | mmask (h : s.phase = .placed) : Completes s .mmask (s.setMatrix (applyMask s.matrix) .done)
  | mrdrow (b : Byte) (hb : b.toNat ≤ 10) (h : s.phase = .done) :
      Completes s (.mrdrow b) (s.setResult (rowWord s.matrix b.toNat))
  | mbuild (hp : s.parValid = true) (hc : ¬ (s.strict = true ∧ 36 < s.msglen + 16)) :
      Completes s .mbuild (s.setPlacement (builtMatrix s) .done)
  | ctlwr (b : Byte) : Completes s (.ctlwr b) (s.setStrict (b.getLsbD 0))
  | stclr : Completes s .stclr s.clearSticky

theorem Fails.ne_ok {s : State} {i : Instr} {e : ErrCode} (h : Fails s i e) : e ≠ .ok := by
  cases h <;> decide

/-- What `Fails` lists is what the commands do. -/
theorem exec_of_fails {s : State} {i : Instr} {e : ErrCode} (h : Fails s i e) : exec i s = raise e s := by
  cases h with
  | gfmul_notable a b ht => simp [exec, execGfmul, ht]
  | exprd_notable b ht => simp [exec, execExprd, ht]
  | logrd_logzero => simp [exec, execLogrd]
  | logrd_notable b hb ht => rw [exec, execLogrd, if_neg hb, ht]; rfl
  | msgput_range n v h =>
    rw [← countOutOfRange_iff, ← valueTooWide_iff] at h
    by_cases hn : countOutOfRange n = true
    · rw [exec, execMsgput, if_pos hn]
    · rw [exec, execMsgput, if_neg hn, if_pos (h.resolve_left hn)]
  | msgput_msgovf n v hn hv h =>
    rw [← countOutOfRange_iff] at hn
    simp [exec, execMsgput, hn, valueTooWide, hv, Config.msgMaxBits, h]
  | cwrd_range b h => simp [exec, execCwrd, pack_length, h]
  | rsgen_notable ht => simp [exec, execRsgen, ht]
  | rsgen_nomsg ht hl => simp [exec, execRsgen, ht, hl]
  | parrd_nopar hp => simp [exec, execParrd, hp]
  | classify_range a b h => simp [exec, execClassify, coordOutOfRange_iff, h]
  | mfind_seq h => simp [exec, execMfind, h]
  | mtime_seq h => simp [exec, execMtime, h]
  | mfmt_seq h => simp [exec, execMfmt, h]
  | mplace_seq h => simp [exec, execMplace, h]
  | mplace_nopar h hp => simp [exec, execMplace, h, hp]
  | mplace_capacity h hp hc => simp [exec, execMplace, h, hp, capacityFails_iff, hc]
  | mmask_seq h => simp [exec, execMmask, h]
  | mrdrow_range b h => simp [exec, execMrdrow, coordOutOfRange_iff, h]
  | mrdrow_notready b hb h => simp [exec, execMrdrow, coordOutOfRange_iff, Nat.not_lt.mpr hb, h]
  | mbuild_nopar hp => simp [exec, execMbuild, hp]
  | mbuild_capacity hp hc => simp [exec, execMbuild, hp, capacityFails_iff, hc]

/-! What MPLACE reads beside M stands in no phase's write (R169, R170). -/

theorem placementBits_setMatrix (s : State) (m : Matrix) (p : Phase) :
    placementBits (s.setMatrix m p) = placementBits s := by
  simp [placementBits]

theorem droppedCount_setMatrix (s : State) (m : Matrix) (p : Phase) :
    droppedCount (s.setMatrix m p) = droppedCount s := by
  simp [droppedCount, placedCount, placementTotal]

theorem placementReport_setMatrix (s : State) (m : Matrix) (p : Phase) :
    placementReport (s.setMatrix m p) = placementReport s := by
  simp [placementReport, droppedCount, placedCount, placementTotal]

/-- A later phase overwrites M and PHASE. -/
theorem State.setMatrix_setMatrix (s : State) (m m' : Matrix) (p p' : Phase) :
    (s.setMatrix m p).setMatrix m' p' = s.setMatrix m' p' := rfl

/-- MMASK after a placement (R172). -/
theorem State.setMatrix_setPlacement (s : State) (m m' : Matrix) (p p' : Phase) :
    (s.setPlacement m p).setMatrix m' p' = s.setPlacement m' p' := rfl

theorem State.setPlacement_setMatrix (s : State) (m m' : Matrix) (p p' : Phase) :
    (s.setMatrix m p).setPlacement m' p' = s.setPlacement m' p' := by
  simp only [State.setPlacement, droppedCount_setMatrix, placementReport_setMatrix, State.setMatrix_setMatrix]

theorem placePhase_eq (s : State) : placePhase s = s.setPlacement (placeBits (placementBits s) s.matrix) .placed := rfl

/-- The six effects of MBUILD together (R174). -/
theorem buildPhases_eq (s : State) :
    maskPhase (placePhase (formatPhase (timingPhase (finderPhase (clearPhase s))))) =
      s.setPlacement (builtMatrix s) .done := by
  simp only [maskPhase, placePhase_eq, formatPhase, timingPhase, finderPhase, clearPhase, builtMatrix,
    State.setMatrix_setMatrix, State.setPlacement_setMatrix, State.setMatrix_setPlacement, placementBits_setMatrix,
    State.setMatrix_matrix, State.setMatrix_formatWord, State.setMatrix_formatMap, State.setPlacement_matrix]

/-- What `Completes` lists is what the commands do. -/
theorem exec_of_completes {s t : State} {i : Instr} (h : Completes s i t) : exec i s = complete t := by
  cases h with
  | nop => rfl
  | tinit_again ht => simp [exec, execTinit, ht]
  | tinit ht => simp [exec, execTinit, ht]
  | gfmul a b ht => simp [exec, execGfmul, ht]
  | exprd b ht => simp [exec, execExprd, ht]
  | logrd b hb ht => rw [exec, execLogrd, if_neg hb, ht]; rfl
  | msgclr => rfl
  | msgput n v hn hv h =>
    rw [← countOutOfRange_iff] at hn
    simp [exec, execMsgput, hn, valueTooWide, hv, Config.msgMaxBits, Nat.not_lt.mpr h]
  | cwrd b h => simp [exec, execCwrd, pack_length, Nat.not_le.mpr h]
  | rsgen ht hl => simp [exec, execRsgen, ht, hl]
  | parrd hp => simp [exec, execParrd, hp]
  | classify a b ha hb => simp [exec, execClassify, coordOutOfRange_iff, Nat.not_lt.mpr ha, Nat.not_lt.mpr hb]
  | mclr => rfl
  | mfind h => simp [exec, execMfind, h, finderPhase]
  | mtime h => simp [exec, execMtime, h, timingPhase]
  | mfmt h => simp [exec, execMfmt, h, formatPhase]
  | mplace h hp hc => rw [← capacityFails_iff] at hc; simp [exec, execMplace, h, hp, hc, placePhase_eq]
  | mmask h => simp [exec, execMmask, h, maskPhase]
  | mrdrow b hb h => simp [exec, execMrdrow, coordOutOfRange_iff, Nat.not_lt.mpr hb, h]
  | mbuild hp hc =>
    rw [← capacityFails_iff] at hc
    rw [exec, execMbuild, hp, if_neg (by decide), if_neg hc, buildPhases_eq]
  | ctlwr b => rfl
  | stclr => rfl

/-- Every command fails or completes, as the two lists say: no check is left out. -/
theorem fails_or_completes (i : Instr) (s : State) : (∃ e, Fails s i e) ∨ ∃ t, Completes s i t := by
  have htbl : s.tblValid = false ∨ s.tblValid = true := by cases s.tblValid <;> simp
  have hpar : s.parValid = false ∨ s.parValid = true := by cases s.parValid <;> simp
  cases i with
  | nop => exact .inr ⟨_, .nop⟩
  | tinit => exact htbl.elim (fun h => .inr ⟨_, .tinit h⟩) fun h => .inr ⟨_, .tinit_again h⟩
  | gfmul a b => exact htbl.imp (fun h => ⟨_, .gfmul_notable a b h⟩) fun h => ⟨_, .gfmul a b h⟩
  | exprd b => exact htbl.imp (fun h => ⟨_, .exprd_notable b h⟩) fun h => ⟨_, .exprd b h⟩
  | logrd b =>
    by_cases hb : b = 0
    · subst hb; exact .inl ⟨_, .logrd_logzero⟩
    · exact htbl.imp (fun h => ⟨_, .logrd_notable b hb h⟩) fun h => ⟨_, .logrd b hb h⟩
  | msgclr => exact .inr ⟨_, .msgclr⟩
  | msgput n v =>
    by_cases hn : n.toNat = 0 ∨ 16 < n.toNat
    · exact .inl ⟨_, .msgput_range n v (.inl hn)⟩
    by_cases hv : v >>> n.toNat = 0
    · exact (Nat.lt_or_ge 32 (s.msglen + n.toNat)).imp (fun h => ⟨_, .msgput_msgovf n v hn hv h⟩)
        fun h => ⟨_, .msgput n v hn hv h⟩
    · exact .inl ⟨_, .msgput_range n v (.inr hv)⟩
  | cwrd b =>
    exact (Nat.lt_or_ge b.toNat (codewordCount s.msglen)).elim (fun h => .inr ⟨_, .cwrd b h⟩)
      fun h => .inl ⟨_, .cwrd_range b h⟩
  | rsgen =>
    rcases htbl with ht | ht
    · exact .inl ⟨_, .rsgen_notable ht⟩
    · exact (em (s.msglen = 0)).imp (fun h => ⟨_, .rsgen_nomsg ht h⟩) fun h => ⟨_, .rsgen ht h⟩
  | parrd => exact hpar.imp (fun h => ⟨_, .parrd_nopar h⟩) fun h => ⟨_, .parrd h⟩
  | classify a b =>
    by_cases h : 10 < a.toNat ∨ 10 < b.toNat
    · exact .inl ⟨_, .classify_range a b h⟩
    · exact .inr ⟨_, .classify a b (by omega) (by omega)⟩
  | mclr => exact .inr ⟨_, .mclr⟩
  | mfind => exact (em (s.phase = .cleared)).elim (fun h => .inr ⟨_, .mfind h⟩) fun h => .inl ⟨_, .mfind_seq h⟩
  | mtime => exact (em (s.phase = .finder)).elim (fun h => .inr ⟨_, .mtime h⟩) fun h => .inl ⟨_, .mtime_seq h⟩
  | mfmt => exact (em (s.phase = .timing)).elim (fun h => .inr ⟨_, .mfmt h⟩) fun h => .inl ⟨_, .mfmt_seq h⟩
  | mplace =>
    by_cases h : s.phase = .format
    · rcases hpar with hp | hp
      · exact .inl ⟨_, .mplace_nopar h hp⟩
      · exact (em _).imp (fun hc => ⟨_, .mplace_capacity h hp hc⟩) fun hc => ⟨_, .mplace h hp hc⟩
    · exact .inl ⟨_, .mplace_seq h⟩
  | mmask => exact (em (s.phase = .placed)).elim (fun h => .inr ⟨_, .mmask h⟩) fun h => .inl ⟨_, .mmask_seq h⟩
  | mbuild =>
    rcases hpar with hp | hp
    · exact .inl ⟨_, .mbuild_nopar hp⟩
    · exact (em _).imp (fun hc => ⟨_, .mbuild_capacity hp hc⟩) fun hc => ⟨_, .mbuild hp hc⟩
  | mrdrow b =>
    rcases Nat.lt_or_ge 10 b.toNat with hb | hb
    · exact .inl ⟨_, .mrdrow_range b hb⟩
    · exact (em (s.phase = .done)).elim (fun h => .inr ⟨_, .mrdrow b hb h⟩) fun h => .inl ⟨_, .mrdrow_notready b hb h⟩
  | ctlwr b => exact .inr ⟨_, .ctlwr b⟩
  | stclr => exact .inr ⟨_, .stclr⟩

/-- Failing and completing exclude each other: a failure's code is not E_OK. -/
theorem Fails.not_completes {s t : State} {i : Instr} {e : ErrCode} (h : Fails s i e) : ¬ Completes s i t := by
  intro hc
  have heq : t.succeed = s.fail e := raise_next ((exec_of_fails h).symm.trans (exec_of_completes hc))
  exact h.ne_ok (congrArg State.lasterr heq).symm

/-- All that a command's next state can be: the two writes of a failure, or the effect and LASTERR. -/
theorem exec_next {i : Instr} {s t : State} (h : exec i s = .next t) :
    (∃ e, Fails s i e ∧ t = s.fail e) ∨ ∃ u, Completes s i u ∧ t = u.succeed := by
  rcases fails_or_completes i s with ⟨e, he⟩ | ⟨u, hu⟩
  · exact .inl ⟨e, he, raise_next ((exec_of_fails he).symm.trans h)⟩
  · exact .inr ⟨u, hu, complete_next ((exec_of_completes hu).symm.trans h)⟩

/-- All that an issued word's next state can be (R78, R79). -/
theorem issue_next_cases {w : Word} {s t : State} (h : issue w s = .next t) :
    (∃ d, decode w = .error d ∧ t = s.fail .illegal) ∨
    (∃ i e, decode w = .ok i ∧ Fails s i e ∧ t = s.fail e) ∨
    ∃ i u, decode w = .ok i ∧ Completes s i u ∧ t = u.succeed := by
  cases hd : decode w with
  | error d => exact .inl ⟨d, rfl, raise_next ((issue_error hd s).symm.trans h)⟩
  | ok i =>
    rcases exec_next ((issue_ok hd s).symm.trans h) with ⟨e, he, ht⟩ | ⟨u, hu, ht⟩
    · exact .inr (.inl ⟨i, e, rfl, he, ht⟩)
    · exact .inr (.inr ⟨i, u, rfl, hu, ht⟩)

/-! ## Host operations and steps -/

/-- An aligned whole-word access at an offset of the window reaches that offset's register (R52, R53). -/
theorem busAccess_word (a : Nat) (ha : a < 16) (ha4 : a % 4 = 0) (k : PortReg → Result) :
    busAccess 4 (Config.portBase + a) k = k (portReg a) := by
  rw [busAccess, if_neg (by omega), if_neg (by omega), Nat.add_sub_cancel_left, if_neg (by omega)]

/-- A bus access with a next state is an aligned whole-word access inside the window (R53). -/
theorem busAccess_next {width addr : Nat} {k : PortReg → Result} {t : State} (h : busAccess width addr k = .next t) :
    width = 4 ∧ ∃ a, addr = Config.portBase + a ∧ k (portReg a) = .next t := by
  unfold busAccess at h
  split at h
  · cases h
  split at h
  · cases h
  split at h
  · cases h
  · exact ⟨by omega, addr - Config.portBase, by omega, h⟩

/-- Only offset 0 of the window is the command register (R52). -/
theorem portReg_eq_cmd {a : Nat} (h : portReg a = .cmd) : a = 0 := by
  unfold portReg at h
  split at h
  · rfl
  all_goals cases h

/-- All that a write to a port register can do (R52). -/
theorem portWrite_next {d : Word} {s t : State} {r : PortReg} (h : portWrite d s r = .next t) :
    (r = .cmd ∧ issue d s = .next t) ∨ t = s := by
  cases r with
  | cmd => exact .inl ⟨rfl, h⟩
  | result => cases h; exact .inr rfl
  | status => cases h; exact .inr rfl
  | reserved => cases h; exact .inr rfl

/-- All that a host operation with a next state can do (R51, R52, R261). -/
theorem hostOp_next {op : HostOp} {s t : State} (h : hostOp op s = .next t) :
    (∃ w, (op = .issue w ∨ op = .busWrite 4 Config.portBase w) ∧ issue w s = .next t) ∨
    (op = .reset ∧ t = s.resetBlock) ∨ (∃ v, t = s.deliver v) ∨ t = s := by
  cases op with
  | issue w => exact .inl ⟨w, .inl rfl, h⟩
  | readResult => cases h; exact .inr (.inr (.inl ⟨_, rfl⟩))
  | readStatus => cases h; exact .inr (.inr (.inl ⟨_, rfl⟩))
  | busRead width addr =>
    rw [hostOp] at h
    obtain ⟨-, a, -, h⟩ := busAccess_next h
    cases h
    exact .inr (.inr (.inl ⟨_, rfl⟩))
  | reset => cases h; exact .inr (.inl ⟨rfl, rfl⟩)
  | busWrite width addr d =>
    rw [hostOp] at h
    obtain ⟨rfl, a, rfl, hw⟩ := busAccess_next h
    rcases portWrite_next hw with ⟨hr, hw⟩ | ht
    · exact .inl ⟨d, .inr (by rw [portReg_eq_cmd hr, Nat.add_zero]), hw⟩
    · exact .inr (.inr (.inr ht))

/-- All that a step with a next state can do: nothing at the program's end, or the next host operation (R21). -/
theorem step_next {s t : State} (h : step s = .next t) :
    (s.prog.length ≤ s.pos ∧ t = s) ∨
    ∃ op, s.prog[s.pos]? = some op ∧ s.pos < s.prog.length ∧ hostOp op s.advance = .next t := by
  cases hop : nextOp s with
  | none =>
    rw [step_idle hop] at h
    cases h
    exact .inl ⟨List.getElem?_eq_none_iff.mp hop, rfl⟩
  | some op => exact .inr ⟨op, hop, (List.getElem?_eq_some_iff.mp hop).1, (step_op hop).symm.trans h⟩

end Sys2Proof.Machine
end

section
/-! PROOFS of the family 10_state: which commands write which element of the state (R21 to R39), from the lists of
failures and completions. -/

namespace Sys2Proof.Machine

/-! ## The program, the position and the parameters -/

/-- The program, the position in it and the two parameters stay. -/
structure KeepsProgram (s t : State) : Prop where
  prog : t.prog = s.prog
  pos : t.pos = s.pos
  formatWord : t.formatWord = s.formatWord
  formatMap : t.formatMap = s.formatMap

theorem KeepsProgram.fail (s : State) (e : ErrCode) : KeepsProgram s (s.fail e) := ⟨rfl, rfl, rfl, rfl⟩

/-- No command writes the program, the position or the parameters. -/
theorem Completes.keepsProgram {s u : State} {i : Instr} (h : Completes s i u) : KeepsProgram s u := by
  cases h <;> constructor <;> simp

theorem issue_keepsProgram {w : Word} {s t : State} (h : issue w s = .next t) : KeepsProgram s t := by
  rcases issue_next_cases h with ⟨-, -, rfl⟩ | ⟨-, e, -, -, rfl⟩ | ⟨i, u, -, hu, rfl⟩
  · exact .fail s _
  · exact .fail s e
  · exact ⟨hu.keepsProgram.prog, hu.keepsProgram.pos, hu.keepsProgram.formatWord, hu.keepsProgram.formatMap⟩

theorem hostOp_keepsProgram {op : HostOp} {s t : State} (h : hostOp op s = .next t) : KeepsProgram s t := by
  rcases hostOp_next h with ⟨w, -, hw⟩ | ⟨-, rfl⟩ | ⟨v, rfl⟩ | rfl
  · exact issue_keepsProgram hw
  all_goals exact ⟨rfl, rfl, rfl, rfl⟩

/-- Settles O16: a step is idle at the program's end or one host operation past the position, and no operation writes
the program or the parameters. -/
theorem stepMovesOnByOneAndKeepsTheProgram : Obligations.StepMovesOnByOneAndKeepsTheProgram := by
  intro s t h
  rcases step_next h with ⟨hend, rfl⟩ | ⟨op, -, hlt, hop⟩
  · exact ⟨rfl, rfl, rfl, fun hlt => absurd hlt (Nat.not_lt.mpr hend), fun _ => rfl⟩
  · have hk := hostOp_keepsProgram hop
    exact ⟨hk.prog, hk.formatWord, hk.formatMap, fun _ => hk.pos, fun hle => absurd hlt (Nat.not_lt.mpr hle)⟩

/-- Settles O6: an issued word runs as the command it decodes to, or raises E_ILLEGAL. -/
theorem stepRunsTheIssuedCommand : Obligations.StepRunsTheIssuedCommand := by
  intro s w hw
  have hstep : step s = issue w s.advance := step_op hw
  exact ⟨fun i hi => hstep.trans (issue_ok hi _), fun e he => hstep.trans (issue_error he _)⟩

/-! ## RESULT (R23) -/

theorem zextByte_lt (b : Byte) : (zextByte b).toNat < 256 := by
  have := b.isLt
  rw [zextByte, BitVec.zeroExtend, BitVec.toNat_setWidth]
  omega

theorem zextBit_lt (b : Bool) : (zextBit b).toNat < 2 := by
  cases b <;> decide

theorem parityWord_lt (p : Vector Byte 2) : (parityWord p).toNat < 65536 := by
  have := (byteAt p 0 ++ byteAt p 1).isLt
  rw [parityWord, BitVec.zeroExtend, BitVec.toNat_setWidth]
  omega

/-- A sum of single bits at the places below `n` is below `2 ^ n`. -/
theorem sum_bits_lt (f : Nat → Bool) (n : Nat) : ((List.range n).map fun c => (f c).toNat <<< c).sum < 2 ^ n := by
  induction n with
  | zero => simp
  | succ n ih =>
    have hbit : (f n).toNat * 2 ^ n ≤ 1 * 2 ^ n := Nat.mul_le_mul_right _ (Bool.toNat_le _)
    rw [List.range_succ, List.map_append, List.sum_append, List.map_singleton, List.sum_singleton, Nat.shiftLeft_eq,
      Nat.pow_succ]
    omega

theorem rowWord_lt (m : Matrix) (r : Nat) : (rowWord m r).toNat < 2048 :=
  (BitVec.toNat_ofNat _ _).trans_lt ((Nat.mod_le _ _).trans_lt (sum_bits_lt (cell m r) 11))

/-- A completing command that writes RESULT is one of ten (R23). -/
theorem Completes.result_eq_or_writer {s u : State} {i : Instr} (h : Completes s i u) :
    u.result = s.result ∨
      (∃ a b, i = .gfmul a b) ∨ (∃ b, i = .exprd b) ∨ (∃ b, i = .logrd b) ∨ (∃ b, i = .cwrd b) ∨ i = .rsgen ∨
      i = .parrd ∨ (∃ a b, i = .classify a b) ∨ i = .mplace ∨ i = .mbuild ∨ (∃ b, i = .mrdrow b) := by
  cases h with
  | gfmul | exprd | logrd | cwrd | rsgen | parrd | classify | mplace | mbuild | mrdrow => exact .inr (by simp)
  | _ => exact .inl (by simp)

/-- Where a completing command's result is narrower than RESULT, the bits above it are 0 (R23). -/
theorem Completes.result_bounds {s u : State} {i : Instr} (h : Completes s i u) :
    ((∃ a b, i = .gfmul a b) ∨ (∃ b, i = .exprd b) ∨ (∃ b, i = .logrd b) ∨ (∃ b, i = .cwrd b) →
      u.result.toNat < 256) ∧
    (i = .rsgen ∨ i = .parrd → u.result.toNat < 65536) ∧
    ((∃ a b, i = .classify a b) → u.result.toNat < 2) ∧
    ((∃ b, i = .mrdrow b) → u.result.toNat < 2048) := by
  refine ⟨?byte, ?parity, ?bit, ?row⟩
  case byte => rintro (⟨a, b, rfl⟩ | ⟨b, rfl⟩ | ⟨b, rfl⟩ | ⟨b, rfl⟩) <;> cases h <;> exact zextByte_lt _
  case parity => rintro (rfl | rfl) <;> cases h <;> exact parityWord_lt _
  case bit => rintro ⟨a, b, rfl⟩; cases h; exact zextBit_lt _
  case row => rintro ⟨b, rfl⟩; cases h; exact rowWord_lt _ _

/-- A word that ends with another code than E_OK makes the two writes of a failure and no other (R231). -/
theorem issue_failed {w : Word} {s t : State} (h : issue w s = .next t) (ht : t.lasterr ≠ .ok) :
    t = s.fail t.lasterr := by
  rcases issue_next_cases h with ⟨-, -, rfl⟩ | ⟨-, e, -, -, rfl⟩ | ⟨i, u, -, -, rfl⟩
  · rfl
  · rfl
  · exact absurd rfl ht

/-- A word that ends with code E_OK decodes to a command that completes. -/
theorem issue_completed {w : Word} {s t : State} (h : issue w s = .next t) (ht : t.lasterr = .ok) :
    ∃ i u, decode w = .ok i ∧ Completes s i u ∧ t = u.succeed := by
  rcases issue_next_cases h with ⟨-, -, rfl⟩ | ⟨i, e, -, he, rfl⟩ | hc
  · cases ht
  · exact absurd ht he.ne_ok
  · exact hc

/-- A write to a read-only or reserved register of the window only moves the position (R52). -/
theorem step_ignored_write {s : State} {a : Nat} {d : Word} (ha : a = 4 ∨ a = 8 ∨ a = 12)
    (h : s.prog[s.pos]? = some (.busWrite 4 (Config.portBase + a) d)) : step s = .next s.advance := by
  rw [step_op h, hostOp, busAccess_word a (by omega) (by omega)]
  rcases ha with rfl | rfl | rfl <;> rfl

/-- Settles O9: by the ten completing commands that write RESULT, and the width of each result. -/
theorem resultHasTenWriters : Obligations.ResultHasTenWriters := by
  refine ⟨rfl, fun s d h => step_ignored_write (.inl rfl) h, fun w s t h ht => ?_, fun i s t h => ?_⟩
  · rw [issue_failed h ht]
    rfl
  · rcases exec_next h with ⟨e, he, rfl⟩ | ⟨u, hu, rfl⟩
    · exact ⟨fun hne => absurd rfl hne, fun hok => absurd hok he.ne_ok⟩
    · exact ⟨fun hne => hu.result_eq_or_writer.resolve_left hne, fun _ => hu.result_bounds⟩

/-! ## STICKY (R26) and TRUNC (R27) -/

theorem Completes.sticky {s u : State} {i : Instr} (h : Completes s i u) (hi : i ≠ .stclr) : u.sticky = s.sticky := by
  cases h with
  | stclr => exact absurd rfl hi
  | _ => simp

/-- STCLR cannot fail. -/
theorem issue_stclr {w : Word} {s t : State} (hw : decode w = .ok .stclr) (h : issue w s = .next t) :
    t = s.clearSticky.succeed :=
  complete_next ((issue_ok hw s).symm.trans h)

/-- Settles O10: a failure sets STICKY, and among the completing commands only STCLR writes it. -/
theorem stickyIsClearedOnlyByStclrAndReset : Obligations.StickyIsClearedOnlyByStclrAndReset := by
  refine ⟨rfl, fun s => rfl, fun w s t h => ⟨fun ht => ?_, fun ht hw => ?_, fun hw => ?_⟩⟩
  · rw [issue_failed h ht]
    rfl
  · obtain ⟨i, u, hi, hu, rfl⟩ := issue_completed h ht
    exact hu.sticky fun hs => hw (hs ▸ hi)
  · rw [issue_stclr hw h]
    rfl

/-- Bits are dropped exactly when the placement sequence is longer than the data region (R170). -/
theorem droppedCount_pos_iff (s : State) : droppedCount s > 0 ↔ s.msglen + 16 > 36 := by
  simp only [droppedCount, placedCount, placementTotal, Config.parityBits, Config.dataCells]
  omega

theorem Completes.trunc_of_placement {s u : State} {i : Instr} (h : Completes s i u) (hi : i = .mplace ∨ i = .mbuild) :
    u.trunc = decide (s.msglen + 16 > 36) := by
  rcases hi with rfl | rfl <;> cases h <;> simp [droppedCount_pos_iff]

theorem Completes.trunc_of_other {s u : State} {i : Instr} (h : Completes s i u) (hp : i ≠ .mplace) (hb : i ≠ .mbuild)
    (hc : i ≠ .stclr) : u.trunc = s.trunc := by
  cases h with
  | mplace => exact absurd rfl hp
  | mbuild => exact absurd rfl hb
  | stclr => exact absurd rfl hc
  | _ => simp

/-- Settles O11: a placement writes TRUNC by its count of dropped bits, STCLR clears it, nothing else writes it. -/
theorem truncFollowsThePlacement : Obligations.TruncFollowsThePlacement := by
  refine ⟨rfl, fun w s t h => ⟨fun hw ht => ?_, fun hw => ?_, fun hor => ?_⟩⟩
  · obtain ⟨i, u, hi, hu, rfl⟩ := issue_completed h ht
    rw [hi] at hw
    exact hu.trunc_of_placement (hw.imp Except.ok.inj Except.ok.inj)
  · rw [issue_stclr hw h]
    rfl
  · by_cases ht : t.lasterr = .ok
    · obtain ⟨hp, hb, hc⟩ := hor.resolve_left (not_not_intro ht)
      obtain ⟨i, u, hi, hu, rfl⟩ := issue_completed h ht
      rw [hi] at hp hb hc
      exact hu.trunc_of_other (fun he => hp (he ▸ rfl)) (fun he => hb (he ▸ rfl)) fun he => hc (he ▸ rfl)
    · rw [issue_failed h ht]
      rfl

/-! ## TBL_VALID and PAR_VALID (R28, R29, R38) -/

theorem Fails.ne_tinit {s : State} {i : Instr} {e : ErrCode} (h : Fails s i e) : i ≠ .tinit := by
  cases h <;> exact fun hi => nomatch hi

theorem Completes.tblValid {s u : State} {i : Instr} (h : Completes s i u) :
    u.tblValid = (s.tblValid || decide (i = .tinit)) := by
  cases h with
  | tinit_again | tinit => simp [*]
  | _ => simp

/-- A completing command keeps valid tables (R38); TINIT is then without effect. -/
theorem Completes.keepsTables {s u : State} {i : Instr} (h : Completes s i u) (hv : s.tblValid = true) :
    u.exp = s.exp ∧ u.log = s.log ∧ (i = .tinit → u = s) := by
  cases h with
  | tinit_again => exact ⟨rfl, rfl, fun _ => rfl⟩
  | tinit ht => exact absurd hv (by simp [ht])
  | _ => simp

/-- Settles O12: only TINIT writes TBL_VALID, and it writes the tables only while that is 0. -/
theorem tablesNeverChangeOnceValid : Obligations.TablesNeverChangeOnceValid := by
  refine ⟨rfl, fun i s t h => ?_⟩
  rcases exec_next h with ⟨e, he, rfl⟩ | ⟨u, hu, rfl⟩
  · exact ⟨by simp [he.ne_tinit], fun _ => ⟨rfl, rfl, fun hi => absurd hi he.ne_tinit⟩⟩
  · refine ⟨hu.tblValid, fun hv => ?_⟩
    obtain ⟨hexp, hlog, htinit⟩ := hu.keepsTables hv
    exact ⟨hexp, hlog, fun hi => by rw [htinit hi]; rfl⟩

/-- Settles O13: RSGEN sets PAR_VALID, MSGCLR and MSGPUT clear it, and three commands need it. -/
theorem parValidFollowsTheMessage : Obligations.ParValidFollowsTheMessage := by
  refine ⟨rfl, fun s => rfl, fun i s t h => ?_, fun s hp => ⟨?_, ?_, fun hf => ?_⟩⟩
  · rcases exec_next h with ⟨e, he, rfl⟩ | ⟨u, hu, rfl⟩
    · cases he <;> simp
    · cases hu <;> simp
  · exact exec_of_fails (.parrd_nopar hp)
  · exact exec_of_fails (.mbuild_nopar hp)
  · exact exec_of_fails (.mplace_nopar hf hp)

/-! ## PHASE and M (R30, R39) -/

/-- The seven moves of PHASE (R163 to R174). -/
theorem Completes.phase_moves {s u : State} {i : Instr} (h : Completes s i u) (hne : u.phase ≠ s.phase) :
    (i = .mclr ∧ u.phase = .cleared) ∨
    (i = .mfind ∧ s.phase = .cleared ∧ u.phase = .finder) ∨
    (i = .mtime ∧ s.phase = .finder ∧ u.phase = .timing) ∨
    (i = .mfmt ∧ s.phase = .timing ∧ u.phase = .format) ∨
    (i = .mplace ∧ s.phase = .format ∧ u.phase = .placed) ∨
    (i = .mmask ∧ s.phase = .placed ∧ u.phase = .done) ∨
    (i = .mbuild ∧ u.phase = .done) := by
  cases h with
  | mclr => exact .inl ⟨rfl, rfl⟩
  | mfind h => exact .inr (.inl ⟨rfl, h, rfl⟩)
  | mtime h => exact .inr (.inr (.inl ⟨rfl, h, rfl⟩))
  | mfmt h => exact .inr (.inr (.inr (.inl ⟨rfl, h, rfl⟩)))
  | mplace h => exact .inr (.inr (.inr (.inr (.inl ⟨rfl, h, rfl⟩))))
  | mmask h => exact .inr (.inr (.inr (.inr (.inr (.inl ⟨rfl, h, rfl⟩)))))
  | mbuild => exact .inr (.inr (.inr (.inr (.inr (.inr ⟨rfl, rfl⟩)))))
  | _ => exact absurd (by simp) hne

/-- Settles O14: by the completing commands that write PHASE, and the phase checks of those that fail. -/
theorem phaseMovesInOrder : Obligations.PhaseMovesInOrder := by
  refine ⟨by decide, fun p => by cases p <;> decide, rfl, fun i s t h hne => ?_, fun s => ?_⟩
  · rcases exec_next h with ⟨e, -, rfl⟩ | ⟨u, hu, rfl⟩
    · exact absurd rfl hne
    · exact hu.phase_moves hne
  · exact ⟨fun h => exec_of_fails (.mfind_seq h), fun h => exec_of_fails (.mtime_seq h),
      fun h => exec_of_fails (.mfmt_seq h), fun h => exec_of_fails (.mplace_seq h),
      fun h => exec_of_fails (.mmask_seq h), fun h b hb => exec_of_fails (.mrdrow_notready b hb h)⟩

/-- At PHASE = 5 only MCLR and MBUILD complete with another matrix (R39). -/
theorem Completes.matrix_of_done {s u : State} {i : Instr} (h : Completes s i u) (hd : s.phase = .done)
    (hne : u.matrix ≠ s.matrix) : i = .mclr ∨ i = .mbuild := by
  cases h with
  | mclr => exact .inl rfl
  | mbuild => exact .inr rfl
  | mfind h | mtime h | mfmt h | mplace h | mmask h => rw [hd] at h; cases h
  | _ => exact absurd (by simp) hne

/-- Settles O15: the phase commands need another PHASE, and of the others only MCLR and MBUILD write the matrix. -/
theorem finishedMatrixIsImmutable : Obligations.FinishedMatrixIsImmutable := by
  intro s hd
  have hne {p : Phase} (hp : .done ≠ p) : s.phase ≠ p := hd ▸ hp
  refine ⟨fun i t h hm => ?_, exec_of_fails (.mfind_seq (hne (by decide))),
    exec_of_fails (.mtime_seq (hne (by decide))), exec_of_fails (.mfmt_seq (hne (by decide))),
    exec_of_fails (.mplace_seq (hne (by decide))),
    exec_of_fails (.mmask_seq (hne (by decide)))⟩
  rcases exec_next h with ⟨e, -, rfl⟩ | ⟨u, hu, rfl⟩
  · exact absurd rfl hm
  · exact hu.matrix_of_done hd hm

/-! ## STATUS (R24) -/

/-- STATUS is a function of the flags, the codes and MSGLEN only. -/
theorem statusWord_deliver (s : State) (v : Word) : statusWord (s.deliver v) = statusWord s := by
  simp [statusWord]

theorem statusWord_advance (s : State) : statusWord s.advance = statusWord s := by
  simp [statusWord]

/-- Bit `k` of STATUS, field by field from the lowest (R24). -/
theorem statusWord_getLsbD (s : State) (k : Nat) (hk : k < 32) :
    (statusWord s).getLsbD k =
      if k < 4 then s.lasterr.bits.getLsbD k
      else if k = 4 then s.sticky
      else if k = 5 then s.trunc
      else if k < 8 then false
      else if k = 8 then s.tblValid
      else if k = 9 then s.parValid
      else if k = 10 then s.strict
      else if k = 11 then false
      else if k < 15 then s.phase.bits.getLsbD (k - 12)
      else if k = 15 then false
      else if k < 22 then (BitVec.ofNat 6 s.msglen).getLsbD (k - 16)
      else false := by
  simp only [statusWord, BitVec.zeroExtend, BitVec.getLsbD_setWidth, BitVec.getLsbD_append]
  interval_cases k <;> simp


theorem statusWord_lasterr (s : State) : (statusWord s).extractLsb' 0 4 = s.lasterr.bits := by
  apply BitVec.eq_of_getLsbD_eq
  intro k hk
  simp [statusWord_getLsbD s k (by omega), hk]

theorem statusWord_phase (s : State) : (statusWord s).extractLsb' 12 3 = s.phase.bits := by
  apply BitVec.eq_of_getLsbD_eq
  intro k hk
  rw [BitVec.getLsbD_extractLsb', statusWord_getLsbD s _ (by omega)]
  interval_cases k <;> simp

theorem statusWord_msglen (s : State) : (statusWord s).extractLsb' 16 6 = BitVec.ofNat 6 s.msglen := by
  apply BitVec.eq_of_getLsbD_eq
  intro k hk
  rw [BitVec.getLsbD_extractLsb', statusWord_getLsbD s _ (by omega)]
  interval_cases k <;> simp

theorem statusWord_reserved (s : State) :
    (statusWord s).extractLsb' 6 2 = 0 ∧ (statusWord s).extractLsb' 22 10 = 0 := by
  constructor <;> apply BitVec.eq_of_getLsbD_eq <;> intro k hk <;>
    rw [BitVec.getLsbD_extractLsb', statusWord_getLsbD s _ (by omega)] <;> interval_cases k <;> simp

/-- A host operation that issues no word and is no reset leaves STATUS (R57). -/
theorem statusWord_of_hostOp {op : HostOp} {s t : State} (h : hostOp op s = .next t) (hi : ∀ w, op ≠ .issue w)
    (hw : ∀ d, op ≠ .busWrite 4 Config.portBase d) (hr : op ≠ .reset) : statusWord t = statusWord s := by
  rcases hostOp_next h with ⟨w, hop | hop, -⟩ | ⟨hop, -⟩ | ⟨v, rfl⟩ | rfl
  · exact absurd hop (hi w)
  · exact absurd hop (hw w)
  · exact absurd hop hr
  · exact statusWord_deliver s v
  · rfl

/-- Settles O52: each field of STATUS by its bits, and the host operations that leave it. -/
theorem statusWordLayout : Obligations.StatusWordLayout := by
  refine ⟨by decide, fun s d h => step_ignored_write (.inr (.inl rfl)) h, fun s t op hop h hi hw hr => ?_, fun s => ?_⟩
  · rw [statusWord_of_hostOp ((step_op hop).symm.trans h) hi hw hr, statusWord_advance]
  · refine ⟨statusWord_lasterr s, ?_, ?_, (statusWord_reserved s).1, ?_, ?_, ?_, ?_, statusWord_phase s, ?_,
      fun hl => ?msglen, (statusWord_reserved s).2⟩
    case msglen => rw [statusWord_msglen, BitVec.toNat_ofNat, Nat.mod_eq_of_lt (by omega)]
    all_goals exact statusWord_getLsbD s _ (by decide)

end Sys2Proof.Machine
end

section
/-! PROOFS: the multiply over the tables is the product of the field (R103, R109). Both are doublings: EXP holds the
powers of 2, and the field product commutes with doubling. -/

namespace Sys2Proof.Machine

/-! ## The field product is linear in each operand -/

/-- Adding `x` on a condition is additive in the condition and what it is added to. -/
theorem xor_pick {n : Nat} (b c : Bool) (p q x : BitVec n) :
    (if (b ^^ c) = true then p ^^^ q ^^^ x else p ^^^ q) =
      (if b = true then p ^^^ x else p) ^^^ if c = true then q ^^^ x else q := by
  cases b <;> cases c
  · rfl
  · exact BitVec.xor_assoc p q x
  · exact (show p ^^^ q ^^^ x = p ^^^ x ^^^ q by ac_rfl)
  · change p ^^^ q = p ^^^ x ^^^ (q ^^^ x)
    rw [show p ^^^ x ^^^ (q ^^^ x) = p ^^^ q ^^^ (x ^^^ x) by ac_rfl, BitVec.xor_self, BitVec.xor_zero]

/-- A sum of the terms that a condition picks is additive in the condition. -/
theorem foldl_xor_pick {n : Nat} (x : Nat → BitVec n) (c d : Nat → Bool) (l : List Nat) (p q : BitVec n) :
    l.foldl (fun p i => if (c i ^^ d i) = true then p ^^^ x i else p) (p ^^^ q) =
      l.foldl (fun p i => if c i = true then p ^^^ x i else p) p ^^^
        l.foldl (fun p i => if d i = true then p ^^^ x i else p) q := by
  induction l generalizing p q with
  | nil => rfl
  | cons i l ih =>
    simp only [List.foldl_cons]
    rw [← ih, xor_pick]

/-- A sum of the terms that a condition picks is additive in the terms. -/
theorem foldl_xor_terms {n : Nat} (x y : Nat → BitVec n) (c : Nat → Bool) (l : List Nat) (p q : BitVec n) :
    l.foldl (fun p i => if c i = true then p ^^^ (x i ^^^ y i) else p) (p ^^^ q) =
      l.foldl (fun p i => if c i = true then p ^^^ x i else p) p ^^^
        l.foldl (fun p i => if c i = true then p ^^^ y i else p) q := by
  induction l generalizing p q with
  | nil => rfl
  | cons i l ih =>
    simp only [List.foldl_cons]
    rw [← ih]
    congr 1
    cases c i
    · rfl
    · exact (show p ^^^ q ^^^ (x i ^^^ y i) = p ^^^ x i ^^^ (q ^^^ y i) by ac_rfl)

theorem carrylessProduct_xor_left (a b c : Byte) :
    carrylessProduct (a ^^^ b) c = carrylessProduct a c ^^^ carrylessProduct b c := by
  simp only [carrylessProduct, BitVec.zeroExtend, BitVec.setWidth_xor, BitVec.shiftLeft_xor_distrib]
  exact foldl_xor_terms (fun i => a.zeroExtend 16 <<< i) (fun i => b.zeroExtend 16 <<< i) c.getLsbD (List.range 8) 0 0

theorem carrylessProduct_xor_right (a b c : Byte) :
    carrylessProduct a (b ^^^ c) = carrylessProduct a b ^^^ carrylessProduct a c := by
  simp only [carrylessProduct, BitVec.getLsbD_xor]
  exact foldl_xor_pick (fun i => a.zeroExtend 16 <<< i) b.getLsbD c.getLsbD (List.range 8) 0 0

/-- A chain of reductions, each by the bit it clears, is additive. -/
theorem foldl_reduce_xor (l : List Nat) (p q : BitVec 16) :
    l.foldl (fun p k => if p.getLsbD (8 + k) then p ^^^ ((0x11D : BitVec 16) <<< k) else p) (p ^^^ q) =
      l.foldl (fun p k => if p.getLsbD (8 + k) then p ^^^ ((0x11D : BitVec 16) <<< k) else p) p ^^^
        l.foldl (fun p k => if p.getLsbD (8 + k) then p ^^^ ((0x11D : BitVec 16) <<< k) else p) q := by
  induction l generalizing p q with
  | nil => rfl
  | cons k l ih =>
    simp only [List.foldl_cons]
    rw [← ih, BitVec.getLsbD_xor, xor_pick]

theorem reduceField_xor (p q : BitVec 16) : reduceField (p ^^^ q) = reduceField p ^^^ reduceField q := by
  simp only [reduceField, foldl_reduce_xor, BitVec.truncate, BitVec.setWidth_xor]

theorem fieldProduct_xor_right (a b c : Byte) :
    fieldProduct a (b ^^^ c) = fieldProduct a b ^^^ fieldProduct a c := by
  rw [fieldProduct, carrylessProduct_xor_right, reduceField_xor]
  rfl

theorem fieldProduct_xor_left (a b c : Byte) :
    fieldProduct (a ^^^ b) c = fieldProduct a c ^^^ fieldProduct b c := by
  rw [fieldProduct, carrylessProduct_xor_left, reduceField_xor]
  rfl

theorem fieldProduct_zero_left (b : Byte) : fieldProduct 0 b = 0 := by
  simpa using fieldProduct_xor_left 0 0 b

theorem fieldProduct_zero_right (a : Byte) : fieldProduct a 0 = 0 := by
  simpa using fieldProduct_xor_right a 0 0

/-! ## Doubling -/

theorem xtime_eq (v : Byte) : xtime v = if v.getLsbD 7 then v <<< 1 ^^^ 0x1D else v <<< 1 := by
  revert v
  decide +kernel

theorem xtime_xor (v w : Byte) : xtime (v ^^^ w) = xtime v ^^^ xtime w := by
  simp only [xtime_eq, BitVec.shiftLeft_xor_distrib, BitVec.getLsbD_xor, xor_pick]

/-- A property of bytes that sums keep holds of all bytes when it holds of 0 and of the single bits. -/
theorem byte_xor_induction {P : Byte → Prop} (hzero : P 0) (hbit : ∀ k : Fin 8, P ((1 : Byte) <<< k.val))
    (hxor : ∀ a b, P a → P b → P (a ^^^ b)) (b : Byte) : P b := by
  have hsum : ∀ b : Byte,
      b = (List.finRange 8).foldl (fun p k => if b.getLsbD k.val then p ^^^ (1 : Byte) <<< k.val else p) 0 := by
    decide +kernel
  have hfold : ∀ (l : List (Fin 8)) (p : Byte), P p →
      P (l.foldl (fun p k => if b.getLsbD k.val then p ^^^ (1 : Byte) <<< k.val else p) p) := by
    intro l
    induction l with
    | nil => exact fun p hp => hp
    | cons k l ih =>
      intro p hp
      refine ih _ ?_
      by_cases hk : b.getLsbD k.val = true
      · simpa only [if_pos hk] using hxor _ _ hp (hbit k)
      · simpa only [if_neg hk] using hp
  rw [hsum b]
  exact hfold _ _ hzero

/-- Doubling an operand doubles the product: both sides are linear in each operand, and agree on single bits. -/
theorem fieldProduct_xtime_left (a b : Byte) : fieldProduct (xtime a) b = xtime (fieldProduct a b) := by
  have hbits : ∀ j k : Fin 8,
      fieldProduct (xtime ((1 : Byte) <<< j.val)) ((1 : Byte) <<< k.val) =
        xtime (fieldProduct ((1 : Byte) <<< j.val) ((1 : Byte) <<< k.val)) := by decide +kernel
  have hzero : xtime 0 = 0 := by decide
  induction b using byte_xor_induction with
  | hzero => rw [fieldProduct_zero_right, fieldProduct_zero_right, hzero]
  | hxor b c hb hc => rw [fieldProduct_xor_right, fieldProduct_xor_right, hb, hc, xtime_xor]
  | hbit k =>
    induction a using byte_xor_induction with
    | hzero => rw [hzero, fieldProduct_zero_left, hzero]
    | hxor a b ha hb => rw [xtime_xor, fieldProduct_xor_left, fieldProduct_xor_left, ha, hb, xtime_xor]
    | hbit j => exact hbits j k

theorem fieldProduct_one_left (b : Byte) : fieldProduct 1 b = b := by
  have hbits : ∀ k : Fin 8, fieldProduct 1 ((1 : Byte) <<< k.val) = (1 : Byte) <<< k.val := by decide +kernel
  induction b using byte_xor_induction with
  | hzero => exact fieldProduct_zero_right 1
  | hbit k => exact hbits k
  | hxor b c hb hc => rw [fieldProduct_xor_right, hb, hc]

theorem fieldProduct_xtimes_left (k : Nat) (a b : Byte) :
    fieldProduct (xtimes k a) b = xtimes k (fieldProduct a b) := by
  induction k with
  | zero => rfl
  | succ k ih => rw [xtimes_succ, fieldProduct_xtime_left, ih, xtimes_succ]

theorem xtimes_add (j k : Nat) (v : Byte) : xtimes (j + k) v = xtimes j (xtimes k v) := by
  induction j with
  | zero => rw [Nat.zero_add]; rfl
  | succ j ih => rw [Nat.succ_add, xtimes_succ, ih, xtimes_succ]

/-- The powers of 2 have the period 255 (R101). -/
theorem xtimes_mod (k : Nat) : xtimes (k % 255) 1 = xtimes k 1 := by
  have hperiod : xtimes 255 1 = 1 := by decide +kernel
  induction k using Nat.strongRecOn with
  | ind k ih =>
    rcases Nat.lt_or_ge k 255 with hk | hk
    · rw [Nat.mod_eq_of_lt hk]
    · obtain ⟨j, rfl⟩ : ∃ j, k = j + 255 := ⟨k - 255, by omega⟩
      rw [Nat.add_mod_right, ih j (by omega), xtimes_add, hperiod]

/-! ## The tables -/

/-- EXP holds the powers of 2 (R33, R101). -/
theorem TablesHold.byteAt_exp {e l : Vector Byte 256} (h : TablesHold e l) (i : Nat) (hi : i ≤ 255) :
    byteAt e i = xtimes i 1 := by
  induction i with
  | zero => exact h.exp_zero
  | succ i ih => rw [h.exp_succ i (by omega), ih (by omega), xtimes_succ]

/-- A nonzero byte is 2 to the power of its entry in LOG (R34, R102). -/
theorem TablesHold.xtimes_log {e l : Vector Byte 256} (h : TablesHold e l) {v : Byte} (hv : v ≠ 0) :
    xtimes (byteAt l v.toNat).toNat 1 = v := by
  rw [← h.byteAt_exp _ (Nat.le_of_lt (h.log_lt v hv)), h.exp_log v hv]

/-- The multiply through the tables is the product of the field (R103, R109). -/
theorem gmul_eq_fieldProduct {e l : Vector Byte 256} (h : TablesHold e l) (a b : Byte) :
    gmul e l a b = fieldProduct a b := by
  by_cases ha : a = 0
  · subst ha
    rw [gmul_zero_left, fieldProduct_zero_left]
  by_cases hb : b = 0
  · subst hb
    rw [gmul_zero_right, fieldProduct_zero_right]
  calc gmul e l a b
      = xtimes (((byteAt l a.toNat).toNat + (byteAt l b.toNat).toNat) % 255) 1 := by
        rw [gmul_of_ne_zero e l ha hb, h.byteAt_exp _ (by omega)]
    _ = xtimes (byteAt l a.toNat).toNat (xtimes (byteAt l b.toNat).toNat 1) := by rw [xtimes_mod, xtimes_add]
    _ = xtimes (byteAt l a.toNat).toNat (fieldProduct 1 b) := by rw [h.xtimes_log hb, fieldProduct_one_left]
    _ = fieldProduct a b := by rw [← fieldProduct_xtimes_left, h.xtimes_log ha]

end Sys2Proof.Machine
end

section
/-! PROOFS: what each phase leaves in a cell (R164 to R172), and that every step keeps the invariant. -/

namespace Sys2Proof.Machine

/-! ## What the phases leave in a cell -/

/-- A fold leaves a cell that none of its writes changes. -/
theorem cell_foldl_of_unchanged {α : Type} (f : Matrix → α → Matrix) (xs : List α) (m : Matrix) (r c : Nat)
    (h : ∀ m, ∀ x ∈ xs, cell (f m x) r c = cell m r c) : cell (xs.foldl f m) r c = cell m r c := by
  induction xs generalizing m with
  | nil => rfl
  | cons x xs ih =>
    rw [List.foldl_cons, ih _ fun m y hy => h m y (List.mem_cons_of_mem _ hy), h m x List.mem_cons_self]

/-- The cells that MFIND writes, in its order (R164). -/
def finderDarkCells : List (Nat × Nat) := (square 7).filter fun p => finderDark p.1 p.2

theorem drawFinder_eq (m : Matrix) :
    drawFinder m = finderDarkCells.foldl (fun m p => setCell m (id p).1 (id p).2 true) m :=
  List.foldl_filter.symm

theorem mem_finderDarkCells {r c : Nat} : (r, c) ∈ finderDarkCells ↔ finderPart r c = true := by
  simp only [finderDarkCells, List.mem_filter, mem_square, finderDark, finderPart, Bool.and_eq_true, Bool.or_eq_true,
    decide_eq_true_eq]
  omega

/-- Phase 1 darkens the finder's dark cells (R164). -/
theorem cell_drawFinder (m : Matrix) (r c : Nat) : cell (drawFinder m) r c = (finderPart r c || cell m r c) := by
  rw [drawFinder_eq]
  by_cases h : (r, c) ∈ finderDarkCells
  · obtain ⟨hr, hc⟩ := mem_square.mp (List.mem_filter.mp h).1
    rw [mem_finderDarkCells.mp h, Bool.true_or]
    exact cell_foldl_setCell_mem id (fun _ => true) finderDarkCells m (r, c) h (by decide) (by simp; omega)
      (by simp; omega)
  · rw [Bool.eq_false_iff.mpr (mt mem_finderDarkCells.mpr h), Bool.false_or]
    exact cell_foldl_setCell_other id (fun _ => true) finderDarkCells m r c fun x hx he => h (he ▸ hx)

/-- Phase 2 writes the timing cells and no other (R165). -/
theorem cell_drawTiming (m : Matrix) (r c : Nat) (hr : r ≤ 10) (hc : c ≤ 10) :
    cell (drawTiming m) r c =
      if (r = 0 ∧ 7 ≤ c) ∨ (c = 0 ∧ 7 ≤ r) then timingPart r c else cell m r c := by
  by_cases hr0 : r = 0
  · subst hr0
    interval_cases c <;> simp [drawTiming, cell_setCell, timingPart]
  by_cases hc0 : c = 0
  · subst hc0
    interval_cases r <;> simp [drawTiming, cell_setCell, timingPart]
  · simp [drawTiming, cell_setCell, hr0, hc0, Ne.symm hr0, Ne.symm hc0]

/-- The entries of an array in order are its list. -/
theorem map_entry_range {α : Type} {n : Nat} (d : α) (xs : Vector α n) :
    (List.range n).map (entry d xs) = xs.toList := by
  apply List.ext_getElem
  · simp
  · intro i h _
    simp at h
    simp [entry, h]

theorem entry_mem_toList {α : Type} {n : Nat} (d : α) (xs : Vector α n) {k : Nat} (hk : k < n) :
    entry d xs k ∈ xs.toList := by
  rw [← map_entry_range d xs]
  exact List.mem_map_of_mem (List.mem_range.mpr hk)

theorem exists_entry_of_mem {α : Type} {n : Nat} (d : α) {xs : Vector α n} {x : α} (h : x ∈ xs.toList) :
    ∃ k, k < n ∧ entry d xs k = x := by
  rw [← map_entry_range d xs, List.mem_map] at h
  obtain ⟨k, hk, hx⟩ := h
  exact ⟨k, List.mem_range.mp hk, hx⟩

/-- The positions of a format map have different cells (R166). -/
theorem FormatMapOk.entry_inj {map : Vector (Nat × Nat) 15} (h : FormatMapOk map) {j k : Nat} (hj : j < 15)
    (hk : k < 15) (he : entry (0, 0) map j = entry (0, 0) map k) : j = k := by
  have hnd := h.1
  rw [← map_entry_range (0, 0) map] at hnd
  exact List.inj_on_of_nodup_map hnd (List.mem_range.mpr hj) (List.mem_range.mpr hk) he

theorem FormatMapOk.isFormatCell {map : Vector (Nat × Nat) 15} (h : FormatMapOk map) {r c : Nat}
    (hm : (r, c) ∈ map.toList) : isFormatCell r c = true :=
  h.2 _ hm

theorem isFormatCell_iff {r c : Nat} :
    isFormatCell r c = true ↔ (r = 8 ∧ 1 ≤ c ∧ c ≤ 8) ∨ (c = 8 ∧ 1 ≤ r ∧ r ≤ 7) := by
  simp only [isFormatCell, decide_eq_true_eq]

/-- Phase 3 writes the bit of each position to its cell (R167). -/
theorem cell_drawFormat_entry (w : BitVec 15) {map : Vector (Nat × Nat) 15} (h : FormatMapOk map) (m : Matrix) {k : Nat}
    (hk : k < 15) :
    cell (drawFormat w map m) (entry (0, 0) map k).1 (entry (0, 0) map k).2 = formatBit w k := by
  have hnd : ((List.range 15).map (entry (0, 0) map)).Nodup := by rw [map_entry_range]; exact h.1
  have hcell := isFormatCell_iff.mp (h.2 _ (entry_mem_toList (0, 0) map hk))
  exact cell_foldl_setCell_mem (entry (0, 0) map) (formatBit w) (List.range 15) m k (List.mem_range.mpr hk) hnd
    (by omega) (by omega)

/-- Phase 3 writes no cell outside the map (R167). -/
theorem cell_drawFormat_other (w : BitVec 15) (map : Vector (Nat × Nat) 15) (m : Matrix) {r c : Nat}
    (h : (r, c) ∉ map.toList) : cell (drawFormat w map m) r c = cell m r c :=
  cell_foldl_setCell_other (entry (0, 0) map) (formatBit w) (List.range 15) m r c fun _ hk he =>
    h (he ▸ entry_mem_toList (0, 0) map (List.mem_range.mp hk))

theorem formatPart_eq_true_iff {w : BitVec 15} {map : Vector (Nat × Nat) 15} {r c : Nat} :
    formatPart w map r c = true ↔ ∃ k, k < 15 ∧ entry (0, 0) map k = (r, c) ∧ formatBit w k = true := by
  simp only [formatPart, formatBit, List.any_eq_true, List.mem_range, Bool.and_eq_true, beq_iff_eq]

theorem formatPart_entry (w : BitVec 15) {map : Vector (Nat × Nat) 15} (h : FormatMapOk map) {k : Nat} (hk : k < 15) :
    formatPart w map (entry (0, 0) map k).1 (entry (0, 0) map k).2 = formatBit w k := by
  rw [Bool.eq_iff_iff, formatPart_eq_true_iff]
  constructor
  · rintro ⟨j, hj, he, hbit⟩
    rwa [← h.entry_inj hj hk he]
  · exact fun hbit => ⟨k, hk, rfl, hbit⟩

theorem formatPart_other (w : BitVec 15) {map : Vector (Nat × Nat) 15} {r c : Nat} (h : (r, c) ∉ map.toList) :
    formatPart w map r c = false := by
  rw [Bool.eq_false_iff, ne_eq, formatPart_eq_true_iff]
  rintro ⟨k, hk, he, -⟩
  exact h (he ▸ entry_mem_toList (0, 0) map hk)

/-- The mask writes no reserved cell (R172). -/
theorem cell_applyMask_reserved (m : Matrix) {r c : Nat} (h : isData r c = false) :
    cell (applyMask m) r c = cell m r c := by
  refine cell_foldl_of_unchanged _ _ _ _ _ fun m p _ => ?_
  split
  · next hp =>
    refine cell_setCell_other _ _ _ _ _ _ fun he => ?_
    obtain ⟨rfl, rfl⟩ := Prod.mk.inj he
    simp [h] at hp
  · rfl

/-! ## The phases draw the template (R175, R176) -/

/-- The format cells are neither finder nor timing cells (R161). -/
theorem template_of_isFormatCell {r c : Nat} (h : isFormatCell r c = true) :
    finderPart r c = false ∧ timingPart r c = false := by
  rw [isFormatCell_iff] at h
  simp only [finderPart, timingPart, Bool.and_eq_false_iff, Bool.or_eq_false_iff, decide_eq_false_iff_not]
  exact ⟨.inl (by omega), .inl (by omega), .inl (by omega)⟩

theorem cell_drawFinder_of_cleared {m : Matrix} {r c : Nat} (h : cell m r c = false) :
    cell (drawFinder m) r c = finderPart r c := by
  rw [cell_drawFinder, h, Bool.or_false]

theorem cell_drawTiming_of_finder {m : Matrix} {r c : Nat} (hr : r ≤ 10) (hc : c ≤ 10)
    (h : cell m r c = finderPart r c) : cell (drawTiming m) r c = (finderPart r c || timingPart r c) := by
  rw [cell_drawTiming m r c hr hc]
  split
  · next ht =>
    have hf : finderPart r c = false := by
      simp only [finderPart, Bool.and_eq_false_iff, decide_eq_false_iff_not]
      exact .inl (by omega)
    rw [hf, Bool.false_or]
  · next ht =>
    have htp : timingPart r c = false := by
      simp only [timingPart, Bool.and_eq_false_iff, Bool.or_eq_false_iff, decide_eq_false_iff_not]
      exact ⟨.inl (by omega), .inl (by omega)⟩
    rw [h, htp, Bool.or_false]

theorem cell_drawFormat_of_timing (w : BitVec 15) {map : Vector (Nat × Nat) 15} (hmap : FormatMapOk map) {m : Matrix}
    {r c : Nat} (h : cell m r c = (finderPart r c || timingPart r c)) :
    cell (drawFormat w map m) r c = templateCell w map r c := by
  rw [templateCell]
  by_cases hm : (r, c) ∈ map.toList
  · obtain ⟨hf, ht⟩ := template_of_isFormatCell (hmap.isFormatCell hm)
    obtain ⟨k, hk, he⟩ := exists_entry_of_mem (0, 0) hm
    have hcell := cell_drawFormat_entry w hmap m hk
    have hpart := formatPart_entry w hmap hk
    rw [he] at hcell hpart
    rw [hcell, hf, ht, hpart, Bool.or_false, Bool.false_or]
  · rw [cell_drawFormat_other w map m hm, h, formatPart_other w hm, Bool.or_false]

/-- MBUILD leaves the template in the reserved cells (R174, R175). -/
theorem cell_builtMatrix_reserved {s : State} (hmap : FormatMapOk s.formatMap) {r c : Nat} (hr : r ≤ 10) (hc : c ≤ 10)
    (hd : isData r c = false) : cell (builtMatrix s) r c = templateCell s.formatWord s.formatMap r c := by
  rw [builtMatrix, cell_applyMask_reserved _ hd, cell_placeBits_reserved _ _ _ _ hd]
  exact cell_drawFormat_of_timing _ hmap
    (cell_drawTiming_of_finder hr hc (cell_drawFinder_of_cleared (cell_cleared r c)))

/-! ## The invariant's clauses -/

/-- The clause about M reads M, PHASE and the parameters only. -/
theorem MatrixFits.congr {s t : State} (h : MatrixFits s) (hm : t.matrix = s.matrix) (hp : t.phase = s.phase)
    (hw : t.formatWord = s.formatWord) (hf : t.formatMap = s.formatMap) : MatrixFits t := by
  unfold MatrixFits
  rwa [hm, hp, hw, hf]

section
variable {s u : State} {i : Instr} (h : Completes s i u) (hs : Inv s)
include h hs

/-- TINIT builds the tables (R104), and no command changes valid ones. -/
theorem Completes.inv_tables : u.tblValid = true → TablesHold u.exp u.log := by
  cases h with
  | tinit => exact fun _ => built_tables_hold s.log
  | _ => simpa using hs.tables

theorem Completes.inv_msglen : u.msglen ≤ 32 := by
  cases h with
  | msgclr => exact Nat.zero_le 32
  | msgput n v hn hv hle => exact hle
  | _ => simpa using hs.msglen

/-- RSGEN leaves the parity over the field, because the tables are valid; MSGCLR and MSGPUT withdraw it (R29). -/
theorem Completes.inv_parity : u.parValid = true →
    u.tblValid = true ∧ 1 ≤ u.msglen ∧ u.par = rsParity fieldProduct (pack u.msg u.msglen) := by
  cases h with
  | tinit ht => exact fun hp => absurd (hs.parity hp).1 (by simp [ht])
  | msgclr | msgput => simp
  | rsgen ht hl =>
    intro _
    refine ⟨ht, Nat.pos_of_ne_zero hl, ?_⟩
    have hg : gmul s.exp s.log = fieldProduct := funext₂ (gmul_eq_fieldProduct (hs.tables ht))
    simp [messageParity, hg]
  | _ => simpa using hs.parity

/-- Each phase draws its part on the matrix of the phase before (R30). -/
theorem Completes.inv_matrix : MatrixFits u := by
  have hm := hs.matrix
  cases h with
  | mclr => exact fun r c _ _ => cell_cleared r c
  | mfind hp =>
    intro r c hr hc
    have hcell : cell s.matrix r c = false := by simpa only [hp] using hm r c hr hc
    simpa using cell_drawFinder_of_cleared hcell
  | mtime hp =>
    intro r c hr hc
    have hcell : cell s.matrix r c = finderPart r c := by simpa only [hp] using hm r c hr hc
    simpa using cell_drawTiming_of_finder hr hc hcell
  | mfmt hp =>
    intro r c hr hc
    have hcell : cell s.matrix r c = (finderPart r c || timingPart r c) := by simpa only [hp] using hm r c hr hc
    simpa using cell_drawFormat_of_timing s.formatWord hs.formatMap hcell
  | mplace hp =>
    intro r c hr hc
    have hcell : cell s.matrix r c = templateCell s.formatWord s.formatMap r c := by
      simpa only [hp] using hm r c hr hc
    simpa using fun hd => (cell_placeBits_reserved (placementBits s) s.matrix r c hd).trans hcell
  | mmask hp =>
    intro r c hr hc
    have hcell : isData r c = false → cell s.matrix r c = templateCell s.formatWord s.formatMap r c := by
      simpa only [hp] using hm r c hr hc
    simpa using fun hd => (cell_applyMask_reserved s.matrix hd).trans (hcell hd)
  | mbuild =>
    intro r c hr hc
    simpa using cell_builtMatrix_reserved hs.formatMap hr hc
  | _ => exact hm.congr (by simp) (by simp) (by simp) (by simp)

/-- A completing command keeps the invariant, with E_OK in LASTERR. -/
theorem Completes.inv : Inv u.succeed where
  tables := h.inv_tables hs
  msglen := h.inv_msglen hs
  parity := h.inv_parity hs
  matrix := (h.inv_matrix hs).congr rfl rfl rfl rfl
  sticky hne := absurd rfl hne
  formatMap := h.keepsProgram.formatMap ▸ hs.formatMap
  pos := by simpa only [State.succeed_pos, State.succeed_prog, h.keepsProgram.pos, h.keepsProgram.prog] using hs.pos

end

theorem Inv.fail {s : State} (hs : Inv s) (e : ErrCode) : Inv (s.fail e) where
  tables := hs.tables
  msglen := hs.msglen
  parity := hs.parity
  matrix := hs.matrix.congr rfl rfl rfl rfl
  sticky _ := rfl
  formatMap := hs.formatMap
  pos := hs.pos

theorem Inv.deliver {s : State} (hs : Inv s) (v : Word) : Inv (s.deliver v) where
  tables := hs.tables
  msglen := hs.msglen
  parity := hs.parity
  matrix := hs.matrix.congr rfl rfl rfl rfl
  sticky := hs.sticky
  formatMap := hs.formatMap
  pos := hs.pos

theorem Inv.advance {s : State} (hs : Inv s) (hlt : s.pos < s.prog.length) : Inv s.advance where
  tables := hs.tables
  msglen := hs.msglen
  parity := hs.parity
  matrix := hs.matrix.congr rfl rfl rfl rfl
  sticky := hs.sticky
  formatMap := hs.formatMap
  pos := hlt

/-- The reset event leaves flags under which no clause speaks of the content (R260). -/
theorem Inv.resetBlock {s : State} (hs : Inv s) : Inv s.resetBlock where
  tables := nofun
  msglen := Nat.zero_le 32
  parity := nofun
  matrix _ _ _ _ := trivial
  sticky hne := absurd rfl hne
  formatMap := hs.formatMap
  pos := hs.pos

theorem Inv.issue {w : Word} {s t : State} (hs : Inv s) (h : issue w s = .next t) : Inv t := by
  rcases issue_next_cases h with ⟨-, -, rfl⟩ | ⟨-, e, -, -, rfl⟩ | ⟨i, u, -, hu, rfl⟩
  · exact hs.fail .illegal
  · exact hs.fail e
  · exact hu.inv hs

theorem Inv.hostOp {op : HostOp} {s t : State} (hs : Inv s) (h : hostOp op s = .next t) : Inv t := by
  rcases hostOp_next h with ⟨w, -, hw⟩ | ⟨-, rfl⟩ | ⟨v, rfl⟩ | rfl
  · exact hs.issue hw
  · exact hs.resetBlock
  · exact hs.deliver v
  · exact hs

/-- Settles O18: each host operation keeps the invariant, the position moved past it. -/
theorem everyStepKeepsTheInvariant : Obligations.EveryStepKeepsTheInvariant := by
  intro s t hs h
  rcases step_next h with ⟨-, rfl⟩ | ⟨op, -, hlt, hop⟩
  · exact hs
  · exact (hs.advance hlt).hostOp hop

end Sys2Proof.Machine
end

section
/-! PROOFS: states that look alike to the host step to outcomes that look alike (R40). Every check reads what both
states show, and every effect writes what is the same in both. -/

namespace Sys2Proof.Machine

/-! ## What a command reads is the same in states that look alike -/

section
variable {s t : State} (h : SameVisible s t)
include h

theorem SameVisible.statusWord : statusWord s = statusWord t := by
  unfold Machine.statusWord
  rw [h.msglen, h.phase, h.strict, h.parValid, h.tblValid, h.trunc, h.sticky, h.lasterr]

/-- The multiply reads LOG at nonzero bytes only (R103), so `LOG[0]` does not matter. -/
theorem SameVisible.gmul (ht : s.tblValid = true) : gmul s.exp s.log = gmul t.exp t.log := by
  funext a b
  by_cases ha : a = 0
  · rw [ha, gmul_zero_left, gmul_zero_left]
  by_cases hb : b = 0
  · rw [hb, gmul_zero_right, gmul_zero_right]
  · rw [gmul_of_ne_zero _ _ ha hb, gmul_of_ne_zero _ _ ha hb, h.exp ht, h.log ht a ha, h.log ht b hb]

/-- Packing reads the bits below MSGLEN only (R131). -/
theorem SameVisible.pack : pack s.msg s.msglen = pack t.msg t.msglen := by
  have hcw : codeword s.msg s.msglen = codeword t.msg s.msglen := by
    funext k
    unfold codeword
    congr 1
    funext cw j
    by_cases hj : 8 * k + j < s.msglen
    · rw [h.msg _ hj]
    · simp [hj]
  rw [Machine.pack, Machine.pack, hcw, h.msglen]

theorem SameVisible.messageParity (ht : s.tblValid = true) : messageParity s = messageParity t := by
  rw [Machine.messageParity, Machine.messageParity, h.gmul ht, h.pack]

theorem SameVisible.placementBits (hp : s.parValid = true) : placementBits s = placementBits t := by
  have hmsg : (List.range s.msglen).map (bitAt s.msg) = (List.range s.msglen).map (bitAt t.msg) :=
    List.map_congr_left fun k hk => h.msg k (List.mem_range.mp hk)
  rw [Machine.placementBits, Machine.placementBits, hmsg, h.par hp, h.msglen]

theorem SameVisible.builtMatrix (hp : s.parValid = true) : builtMatrix s = builtMatrix t := by
  rw [Machine.builtMatrix, Machine.builtMatrix, h.placementBits hp, h.formatWord, h.formatMap]

/-! ## Updates with the same value keep states looking alike -/

theorem SameVisible.fail (e : ErrCode) : SameVisible (s.fail e) (t.fail e) :=
  { h with lasterr := rfl, sticky := rfl }

theorem SameVisible.succeed : SameVisible s.succeed t.succeed := { h with lasterr := rfl }

theorem SameVisible.setResult (v : Word) : SameVisible (s.setResult v) (t.setResult v) := { h with result := rfl }

theorem SameVisible.setPar (p : Vector Byte 2) : SameVisible (s.setPar p) (t.setPar p) :=
  { h with par := fun _ => rfl, parValid := rfl }

theorem SameVisible.setMatrix (m : Matrix) (p : Phase) : SameVisible (s.setMatrix m p) (t.setMatrix m p) :=
  { h with matrix := fun _ => rfl, phase := rfl }

theorem SameVisible.setTrunc (b : Bool) : SameVisible (s.setTrunc b) (t.setTrunc b) := { h with trunc := rfl }

theorem SameVisible.setStrict (b : Bool) : SameVisible (s.setStrict b) (t.setStrict b) := { h with strict := rfl }

theorem SameVisible.clearSticky : SameVisible s.clearSticky t.clearSticky := { h with sticky := rfl, trunc := rfl }

theorem SameVisible.advance : SameVisible s.advance t.advance := { h with pos := congrArg (· + 1) h.pos }

theorem SameVisible.deliver (v : Word) : SameVisible (s.deliver v) (t.deliver v) :=
  { h with reads := congrArg (· ++ [v]) h.reads }

theorem SameVisible.setMsglen_zero : SameVisible (s.setMsglen 0) (t.setMsglen 0) :=
  { h with msglen := rfl, parValid := rfl, msg := fun _ hk => absurd hk (Nat.not_lt_zero _), par := nofun }

theorem SameVisible.setPlacement (m : Matrix) (p : Phase) : SameVisible (s.setPlacement m p) (t.setPlacement m p) := by
  have hd : droppedCount s = droppedCount t := by simp only [droppedCount, placedCount, placementTotal, h.msglen]
  have hr : placementReport s = placementReport t := by
    simp only [placementReport, droppedCount, placedCount, placementTotal, h.msglen]
  rw [State.setPlacement, State.setPlacement, hd, hr]
  exact ((h.setMatrix m p).setTrunc _).setResult _

/-- MSGPUT appends the same bits behind messages that are the same below MSGLEN (R133). -/
theorem SameVisible.setMsg (bs : List Bool) (hlen : s.msglen + bs.length ≤ 32) :
    SameVisible (s.setMsg (appendBits s.msg s.msglen bs) (s.msglen + bs.length))
      (t.setMsg (appendBits t.msg t.msglen bs) (t.msglen + bs.length)) :=
  { h with
    msglen := congrArg (· + bs.length) h.msglen
    parValid := rfl
    par := nofun
    msg := by
      intro k hk
      simp only [State.setMsg_msg, State.setMsg_msglen] at hk ⊢
      rw [← h.msglen, bitAt_appendBits _ _ _ hlen, bitAt_appendBits _ _ _ hlen]
      split
      · rfl
      · exact h.msg k (by omega) }

theorem SameVisible.setTables (e : Vector Byte 256) {l l' : Vector Byte 256}
    (hl : ∀ v : Byte, v ≠ 0 → byteAt l v.toNat = byteAt l' v.toNat) :
    SameVisible (s.setTables e l) (t.setTables e l') :=
  { h with tblValid := rfl, exp := fun _ => rfl, log := fun _ => hl }

omit h in
/-- TINIT writes every entry of LOG but `LOG[0]`, whatever LOG held (R102). -/
theorem byteAt_buildLog_of_ne_zero (l l' : Vector Byte 256) {v : Byte} (hv : v ≠ 0) :
    byteAt (buildLog buildExp l) v.toNat = byteAt (buildLog buildExp l') v.toNat := by
  rw [byteAt_buildLog _ _ _ v.isLt, byteAt_buildLog _ _ _ v.isLt, BitVec.ofNat_toNat, BitVec.setWidth_eq]
  split
  · rfl
  · next hnone => exact absurd (mem_buildExp hv) (lastIndexOf_none hnone)

theorem SameVisible.resetBlock : SameVisible s.resetBlock t.resetBlock :=
  { h with
    tblValid := rfl, msglen := rfl, parValid := rfl, phase := rfl, strict := rfl, trunc := rfl, result := rfl
    lasterr := rfl, sticky := rfl, exp := nofun, log := nofun, msg := fun _ _ => rfl, par := nofun
    matrix := fun _ => rfl }

/-! ## Commands, host operations and steps -/

/-- The checks read only what looks alike. -/
theorem SameVisible.fails {i : Instr} {e : ErrCode} (hf : Fails s i e) : Fails t i e := by
  cases hf <;> constructor
  all_goals try simp only [← h.tblValid, ← h.parValid, ← h.phase, ← h.strict, ← h.msglen]
  all_goals assumption

/-- The effects write only what looks alike. -/
theorem SameVisible.completes {i : Instr} {u : State} (hc : Completes s i u) :
    ∃ v, Completes t i v ∧ SameVisible u v := by
  have hphase {p : Phase} (hp : s.phase = p) : t.phase = p := h.phase ▸ hp
  have hmatrix {p : Phase} (hp : s.phase = p) (hn : p ≠ .noMatrix) : s.matrix = t.matrix := h.matrix (hp ▸ hn)
  cases hc with
  | nop => exact ⟨_, .nop, h⟩
  | tinit_again ht => exact ⟨_, .tinit_again (h.tblValid ▸ ht), h⟩
  | tinit ht => exact ⟨_, .tinit (h.tblValid ▸ ht), h.setTables _ fun _ => byteAt_buildLog_of_ne_zero _ _⟩
  | gfmul a b ht => exact ⟨_, .gfmul a b (h.tblValid ▸ ht), h.gmul ht ▸ h.setResult _⟩
  | exprd b ht => exact ⟨_, .exprd b (h.tblValid ▸ ht), h.exp ht ▸ h.setResult _⟩
  | logrd b hb ht => exact ⟨_, .logrd b hb (h.tblValid ▸ ht), h.log ht b hb ▸ h.setResult _⟩
  | msgclr => exact ⟨_, .msgclr, h.setMsglen_zero⟩
  | msgput n v hn hv hle =>
    have hset := h.setMsg (putBits n v) (by rwa [putBits_length])
    rw [putBits_length] at hset
    exact ⟨_, .msgput n v hn hv (h.msglen ▸ hle), hset⟩
  | cwrd b hb => exact ⟨_, .cwrd b (h.msglen ▸ hb), h.pack ▸ h.setResult _⟩
  | rsgen ht hl =>
    exact ⟨_, .rsgen (h.tblValid ▸ ht) (h.msglen ▸ hl), h.messageParity ht ▸ (h.setPar _).setResult _⟩
  | parrd hp => exact ⟨_, .parrd (h.parValid ▸ hp), h.par hp ▸ h.setResult _⟩
  | classify a b ha hb => exact ⟨_, .classify a b ha hb, h.setResult _⟩
  | mclr => exact ⟨_, .mclr, h.setMatrix _ _⟩
  | mfind hp => exact ⟨_, .mfind (hphase hp), hmatrix hp nofun ▸ h.setMatrix _ _⟩
  | mtime hp => exact ⟨_, .mtime (hphase hp), hmatrix hp nofun ▸ h.setMatrix _ _⟩
  | mfmt hp =>
    refine ⟨_, .mfmt (hphase hp), ?_⟩
    rw [hmatrix hp nofun, h.formatWord, h.formatMap]
    exact h.setMatrix _ _
  | mplace hp hv hc =>
    refine ⟨_, .mplace (hphase hp) (h.parValid ▸ hv) (h.strict ▸ h.msglen ▸ hc), ?_⟩
    rw [hmatrix hp nofun, h.placementBits hv]
    exact h.setPlacement _ _
  | mmask hp => exact ⟨_, .mmask (hphase hp), hmatrix hp nofun ▸ h.setMatrix _ _⟩
  | mrdrow b hb hp => exact ⟨_, .mrdrow b hb (hphase hp), hmatrix hp nofun ▸ h.setResult _⟩
  | mbuild hv hc =>
    refine ⟨_, .mbuild (h.parValid ▸ hv) (h.strict ▸ h.msglen ▸ hc), ?_⟩
    rw [h.builtMatrix hv]
    exact h.setPlacement _ _
  | ctlwr b => exact ⟨_, .ctlwr b, h.setStrict _⟩
  | stclr => exact ⟨_, .stclr, h.clearSticky⟩

theorem SameVisible.exec (i : Instr) : SameOutcome (exec i s) (exec i t) := by
  rcases fails_or_completes i s with ⟨e, hf⟩ | ⟨u, hu⟩
  · rw [exec_of_fails hf, exec_of_fails (h.fails hf)]
    exact h.fail e
  · obtain ⟨v, hv, huv⟩ := h.completes hu
    rw [exec_of_completes hu, exec_of_completes hv]
    exact huv.succeed

theorem SameVisible.issue (w : Word) : SameOutcome (issue w s) (issue w t) := by
  cases hd : decode w with
  | ok i =>
    rw [issue_ok hd, issue_ok hd]
    exact h.exec i
  | error d =>
    rw [issue_error hd, issue_error hd]
    exact h.fail .illegal

theorem SameVisible.portRead (r : PortReg) : portRead s r = portRead t r := by
  cases r with
  | cmd | reserved => rfl
  | result => exact h.result
  | status => exact h.statusWord

theorem SameVisible.portWrite (d : Word) (r : PortReg) : SameOutcome (portWrite d s r) (portWrite d t r) := by
  cases r with
  | cmd => exact h.issue d
  | result | status | reserved => exact h

omit h in
/-- An access looks alike when what it does with a register does: its refusals read no state (R53). -/
theorem sameOutcome_busAccess (width addr : Nat) {k k' : PortReg → Result} (hk : ∀ r, SameOutcome (k r) (k' r)) :
    SameOutcome (busAccess width addr k) (busAccess width addr k') := by
  unfold busAccess
  split
  · exact rfl
  split
  · exact rfl
  split
  · exact rfl
  · exact hk _

theorem SameVisible.hostOp (op : HostOp) : SameOutcome (hostOp op s) (hostOp op t) := by
  cases op with
  | issue w => exact h.issue w
  | readResult => exact (congrArg (SameVisible _ <| State.deliver · t) h.result).mp (h.deliver _)
  | readStatus => exact (congrArg (SameVisible _ <| State.deliver · t) h.statusWord).mp (h.deliver _)
  | busWrite width addr d => exact sameOutcome_busAccess width addr (h.portWrite d)
  | busRead width addr =>
    rw [Machine.hostOp, Machine.hostOp]
    refine sameOutcome_busAccess width addr fun r => ?_
    rw [h.portRead r]
    exact h.deliver _
  | reset => exact h.resetBlock

theorem SameVisible.step : SameOutcome (step s) (step t) := by
  have hnext : nextOp t = nextOp s := by rw [nextOp, nextOp, h.prog, h.pos]
  cases hop : nextOp s with
  | none =>
    rw [step_idle hop, step_idle (hnext.trans hop)]
    exact h
  | some op =>
    rw [step_op hop, step_op (hnext.trans hop)]
    exact h.advance.hostOp op

end

/-! ## M is not observed before PHASE = 5 -/

/-- `M <- m` alone. -/
def State.withMatrix (m : Matrix) (s : State) : State := s.setMatrix m s.phase

/-- RESULT and STATUS are the same. -/
def SameReadings (s t : State) : Prop := s.result = t.result ∧ statusWord s = statusWord t

theorem State.withMatrix_restore (s : State) (m : Matrix) : (s.withMatrix m).withMatrix s.matrix = s := rfl

/-- No check reads M. -/
theorem Fails.withMatrix {s : State} {i : Instr} {e : ErrCode} (h : Fails s i e) (m : Matrix) :
    Fails (s.withMatrix m) i e := by
  cases h <;> constructor <;> assumption

/-- Only MRDROW's effect lets RESULT depend on M, and it needs PHASE = 5 (R173). -/
theorem Completes.sameReadings_withMatrix {s u v : State} {i : Instr} {m : Matrix} (h : Completes s i u)
    (h' : Completes (s.withMatrix m) i v) (hd : s.phase ≠ .done) : SameReadings u.succeed v.succeed := by
  cases h with
  | mrdrow b hb hp => exact absurd hp hd
  | tinit_again ht =>
    cases h' with
    | tinit_again => simp [SameReadings, statusWord, State.withMatrix]
    | tinit ht' => exact absurd (ht.symm.trans ht') (by decide)
  | tinit ht =>
    cases h' with
    | tinit_again ht' => exact absurd (ht.symm.trans ht') (by decide)
    | tinit => simp [SameReadings, statusWord, State.withMatrix]
  | mplace | mbuild =>
    cases h'
    simp [SameReadings, statusWord, State.withMatrix, placementReport_setMatrix, droppedCount_setMatrix]
  | _ =>
    cases h'
    simp [SameReadings, statusWord, State.withMatrix, messageParity]

/-- While PHASE is not 5, M changes neither reading that a word leaves (R40). -/
theorem issue_withMatrix {w : Word} {s t u : State} {m : Matrix} (hd : s.phase ≠ .done) (ht : issue w s = .next t)
    (hu : issue w (s.withMatrix m) = .next u) : SameReadings t u := by
  rcases issue_next_cases ht with ⟨d, hw, rfl⟩ | ⟨i, e, hw, hf, rfl⟩ | ⟨i, v, hw, hc, rfl⟩
  · rw [issue_error hw] at hu
    rw [raise_next hu]
    exact ⟨rfl, rfl⟩
  · rw [issue_ok hw, exec_of_fails (hf.withMatrix m)] at hu
    rw [raise_next hu]
    exact ⟨rfl, rfl⟩
  · rw [issue_ok hw] at hu
    rcases exec_next hu with ⟨e, hf, -⟩ | ⟨v', hc', rfl⟩
    · exact absurd hc (s.withMatrix_restore m ▸ hf.withMatrix s.matrix).not_completes
    · exact hc.sameReadings_withMatrix hc' hd

/-- Settles O19: what a command reads looks alike in both states, and M is read by MRDROW at PHASE = 5 only. -/
theorem unreadableContentIsNeverObserved : Obligations.UnreadableContentIsNeverObserved :=
  ⟨fun _ _ h => h.step, fun _ _ _ _ _ hd ht hu => issue_withMatrix hd ht hu⟩

end Sys2Proof.Machine
end

section
/-! PROOFS of the family 20_memory: the bus window (R52, R53), the accesses outside it (R64), and the two reads (R51,
R57). -/

namespace Sys2Proof.Machine

/-! ## The two reads of the port -/

/-- Handing a value to the host and moving its position changes neither reading (R57). -/
theorem readings_advance_deliver (s : State) (v : Word) :
    readResult (s.advance.deliver v) = readResult s ∧ readStatus (s.advance.deliver v) = readStatus s :=
  ⟨rfl, (statusWord_deliver _ v).trans (statusWord_advance s)⟩

theorem step_readResult {s : State} (h : s.prog[s.pos]? = some .readResult) :
    step s = .next (s.advance.deliver (readResult s)) :=
  step_op h

theorem step_readStatus {s : State} (h : s.prog[s.pos]? = some .readStatus) :
    step s = .next (s.advance.deliver (readStatus s)) := by
  rw [step_op h, hostOp, readStatus, readStatus, statusWord_advance]

/-- Settles O53: either read is a delivery alone, and a delivery changes neither reading. -/
theorem portReadsHaveNoSideEffect : Obligations.PortReadsHaveNoSideEffect := by
  refine fun s => ⟨step_readResult, step_readStatus, fun t ht hop => ?_⟩
  obtain ⟨v, hv⟩ : ∃ v, step s = .next (s.advance.deliver v) :=
    hop.elim (fun h => ⟨_, step_readResult h⟩) (fun h => ⟨_, step_readStatus h⟩)
  cases hv.symm.trans ht
  exact readings_advance_deliver s v

/-! ## When a bus access stops -/

theorem busAccess_outside {addr : Nat} (h : addr < Config.portBase ∨ Config.portBase + 16 ≤ addr) (width : Nat)
    (k : PortReg → Result) : busAccess width addr k = .fault .outsidePort :=
  if_pos h

theorem busAccess_notWord {width a : Nat} (ha : a < 16) (hw : width ≠ 4) (k : PortReg → Result) :
    busAccess width (Config.portBase + a) k = .refused .notWordAccess := by
  rw [busAccess, if_neg (by omega), if_pos hw]

theorem busAccess_unaligned {a : Nat} (ha : a < 16) (ha4 : a % 4 ≠ 0) (k : PortReg → Result) :
    busAccess 4 (Config.portBase + a) k = .refused .unalignedAccess := by
  rw [busAccess, if_neg (by omega), if_neg (by omega), Nat.add_sub_cancel_left, if_pos ha4]

/-- A step at a bus write or a bus read is the access to that address, whatever it does with a register. -/
theorem step_busAccess {s : State} {width addr : Nat} {d : Word}
    (h : s.prog[s.pos]? = some (.busWrite width addr d) ∨ s.prog[s.pos]? = some (.busRead width addr)) :
    ∃ k, step s = busAccess width addr k :=
  h.elim (fun h => ⟨portWrite d s.advance, step_op h⟩)
    (fun h => ⟨fun r => .next (s.advance.deliver (portRead s.advance r)), step_op h⟩)

/-- Settles O55: the window is checked before anything else of the access. -/
theorem accessOutsideTheWindowFaults : Obligations.AccessOutsideTheWindowFaults := by
  intro s n a d ha h
  obtain ⟨k, hk⟩ := step_busAccess h
  rw [hk, busAccess_outside ha]

/-! ## The aligned whole-word accesses -/

/-- A word write inside the window is the write to the register at its offset (R52). -/
theorem step_word_write {s : State} {a : Nat} {d : Word} (ha : a < 16) (ha4 : a % 4 = 0)
    (h : s.prog[s.pos]? = some (.busWrite 4 (Config.portBase + a) d)) :
    step s = portWrite d s.advance (portReg a) := by
  rw [step_op h, hostOp, busAccess_word a ha ha4]

/-- A word read inside the window hands the register at its offset to the host (R52). -/
theorem step_word_read {s : State} {a : Nat} (ha : a < 16) (ha4 : a % 4 = 0)
    (h : s.prog[s.pos]? = some (.busRead 4 (Config.portBase + a))) :
    step s = .next (s.advance.deliver (portRead s.advance (portReg a))) := by
  rw [step_op h, hostOp, busAccess_word a ha ha4]

/-- Settles O54: the register at each word offset, then the two refusals in their order. -/
theorem busWindowIsTheAbstractPort : Obligations.BusWindowIsTheAbstractPort := by
  refine fun s => ⟨fun d h => ?cmd, fun d a ha h => step_ignored_write ha h, fun h => ?result, fun h => ?status,
    fun a ha h => ?zero, fun n a d ha hn h => ?width, fun a d ha ha4 h => ?alignment⟩
  case cmd => exact step_word_write (a := 0) (by decide) rfl h
  case result => exact step_word_read (by decide) rfl h
  case status =>
    have hread := step_word_read (by decide) rfl h
    rw [portReg, portRead, readStatus, statusWord_advance] at hread
    exact hread
  case zero => rcases ha with rfl | rfl <;> exact step_word_read (by decide) rfl h
  case width =>
    obtain ⟨k, hk⟩ := step_busAccess h
    rw [hk, busAccess_notWord ha hn]
  case alignment =>
    obtain ⟨k, hk⟩ := step_busAccess h
    rw [hk, busAccess_unaligned ha ha4]

end Sys2Proof.Machine
end

section
/-! PROOFS of the family 30_encoding: the decoder and the encoder (R70 to R81). The one fact behind them is that a word
is the word of a format exactly when its fields are the opcode, zero reserved bits and the operands. -/

namespace Sys2Proof.Machine

/-! ## The words of each format by their fields -/

/-- A bit vector is an append exactly when its two parts are. -/
theorem eq_append_iff {m n : Nat} (x : BitVec m) (y : BitVec n) {w : BitVec (m + n)} :
    w = x ++ y ↔ w.extractLsb' n m = x ∧ w.extractLsb' 0 n = y := by
  constructor
  · rintro rfl
    simp [BitVec.extractLsb'_append_eq_of_le, BitVec.extractLsb'_append_eq_of_add_le]
  · rintro ⟨rfl, rfl⟩
    rw [BitVec.extractLsb'_append_extractLsb'_eq_extractLsb' (Nat.zero_add n).symm, BitVec.extractLsb'_eq_self]

theorem low_eq_append_iff {k m n : Nat} (x : BitVec m) (y : BitVec n) {w : BitVec k} :
    w.extractLsb' 0 (m + n) = x ++ y ↔ w.extractLsb' n m = x ∧ w.extractLsb' 0 n = y := by
  rw [eq_append_iff, BitVec.extractLsb'_extractLsb'_of_le (by omega), BitVec.extractLsb'_extractLsb'_of_le (by omega)]

theorem eq_encodeN_iff {op : Byte} {w : Word} : w = encodeN op ↔ fieldOp w = op ∧ w.extractLsb' 0 24 = 0 :=
  eq_append_iff op 0#24

theorem eq_encodeB8_iff {op b : Byte} {w : Word} :
    w = encodeB8 op b ↔ fieldOp w = op ∧ w.extractLsb' 8 16 = 0 ∧ fieldB w = b :=
  (eq_append_iff op (0#16 ++ b)).trans (and_congr_right' (low_eq_append_iff 0#16 b))

theorem eq_encodeB16_iff {op a b : Byte} {w : Word} :
    w = encodeB16 op a b ↔ fieldOp w = op ∧ w.extractLsb' 16 8 = 0 ∧ fieldA w = a ∧ fieldB w = b :=
  (eq_append_iff op (0#8 ++ (a ++ b))).trans
    (and_congr_right' ((low_eq_append_iff 0#8 (a ++ b)).trans (and_congr_right' (low_eq_append_iff a b))))

theorem eq_encodeP_iff {op : Byte} {n : BitVec 5} {v : BitVec 16} {w : Word} :
    w = encodeP op n v ↔ fieldOp w = op ∧ w.extractLsb' 21 3 = 0 ∧ fieldN w = n ∧ fieldV w = v :=
  (eq_append_iff op (0#3 ++ (n ++ v))).trans
    (and_congr_right' ((low_eq_append_iff 0#3 (n ++ v)).trans (and_congr_right' (low_eq_append_iff n v))))

/-- CTLWR's check of its operand is the decoder's check of `w[7:1]` (R79). -/
theorem ctlwrOperandOk_iff {w : Word} : ctlwrOperandOk (fieldB w) = true ↔ w.extractLsb' 1 7 = 0 := by
  have h : w.extractLsb' 1 7 = (fieldB w >>> 1).setWidth 7 := by
    apply BitVec.eq_of_getLsbD_eq
    intro k hk
    simp [fieldB, hk, show 1 + k < 8 by omega]
  rw [ctlwrOperandOk, beq_iff_eq, h]
  generalize fieldB w = b
  revert b
  decide

/-! ## Decoding an encoded command (R78, R81) -/

@[simp] theorem fieldOp_encodeN (op : Byte) : fieldOp (encodeN op) = op := (eq_encodeN_iff.mp rfl).1

@[simp] theorem fieldOp_encodeB8 (op b : Byte) : fieldOp (encodeB8 op b) = op := (eq_encodeB8_iff.mp rfl).1

@[simp] theorem fieldOp_encodeB16 (op a b : Byte) : fieldOp (encodeB16 op a b) = op := (eq_encodeB16_iff.mp rfl).1

@[simp] theorem fieldOp_encodeP (op : Byte) (n : BitVec 5) (v : BitVec 16) : fieldOp (encodeP op n v) = op :=
  (eq_encodeP_iff.mp rfl).1

@[simp] theorem formatN_encodeN (op : Byte) (i : Instr) : formatN (encodeN op) i = .ok i := by
  obtain ⟨-, hz⟩ := eq_encodeN_iff.mp (rfl : encodeN op = _)
  rw [formatN, if_neg (not_not.mpr hz)]

@[simp] theorem formatB8_encodeB8 (op b : Byte) (k : Byte → Instr) : formatB8 (encodeB8 op b) k = .ok (k b) := by
  obtain ⟨-, hz, hb⟩ := eq_encodeB8_iff.mp (rfl : encodeB8 op b = _)
  rw [formatB8, if_neg (not_not.mpr hz), hb]

@[simp] theorem formatB16_encodeB16 (op a b : Byte) (k : Byte → Byte → Instr) :
    formatB16 (encodeB16 op a b) k = .ok (k a b) := by
  obtain ⟨-, hz, ha, hb⟩ := eq_encodeB16_iff.mp (rfl : encodeB16 op a b = _)
  rw [formatB16, if_neg (not_not.mpr hz), ha, hb]

@[simp] theorem formatP_encodeP (op : Byte) (n : BitVec 5) (v : BitVec 16) (k : BitVec 5 → BitVec 16 → Instr) :
    formatP (encodeP op n v) k = .ok (k n v) := by
  obtain ⟨-, hz, hn, hv⟩ := eq_encodeP_iff.mp (rfl : encodeP op n v = _)
  rw [formatP, if_neg (not_not.mpr hz), hn, hv]

theorem formatCtlwr_encodeB8 {op b : Byte} (h : ctlwrOperandOk b = true) :
    formatCtlwr (encodeB8 op b) = .ok (.ctlwr b) := by
  obtain ⟨-, hz, hb⟩ := eq_encodeB8_iff.mp (rfl : encodeB8 op b = _)
  have hlow : (encodeB8 op b).extractLsb' 1 7 = 0 := by rw [← ctlwrOperandOk_iff, hb, h]
  rw [formatCtlwr, if_neg (not_not.mpr hz), if_neg (not_not.mpr hlow), hb]

/-- Settles O1: the opcode leads back to the command's format, and the format to its operands. -/
theorem decodeAfterEncodeGivesTheCommand : Obligations.DecodeAfterEncodeGivesTheCommand := by
  intro i hi
  cases i with
  | nop | tinit | msgclr | rsgen | parrd | mclr | mfind | mtime | mfmt | mplace | mmask | mbuild | stclr =>
    simp only [encode, decode, fieldOp_encodeN, formatN_encodeN, BitVec.reduceToNat]
  | exprd b | logrd b | cwrd b | mrdrow b =>
    simp only [encode, decode, fieldOp_encodeB8, formatB8_encodeB8, BitVec.reduceToNat]
  | gfmul a b | classify a b =>
    simp only [encode, decode, fieldOp_encodeB16, formatB16_encodeB16, BitVec.reduceToNat]
  | msgput n v => simp only [encode, decode, fieldOp_encodeP, formatP_encodeP, BitVec.reduceToNat]
  | ctlwr b => simp only [encode, decode, fieldOp_encodeB8, formatCtlwr_encodeB8 hi, BitVec.reduceToNat]

/-- Settles O5: each word is the encoded word of its command, but for the last, whose opcode is undefined. -/
theorem writtenOutWordsDecode : Obligations.WrittenOutWordsDecode :=
  ⟨decodeAfterEncodeGivesTheCommand .nop rfl, decodeAfterEncodeGivesTheCommand .tinit rfl,
    decodeAfterEncodeGivesTheCommand (.gfmul 0x02 0x80) rfl, decodeAfterEncodeGivesTheCommand (.exprd 25) rfl,
    decodeAfterEncodeGivesTheCommand (.msgput 16 0x2200) rfl, decodeAfterEncodeGivesTheCommand (.classify 9 10) rfl,
    decodeAfterEncodeGivesTheCommand (.mrdrow 10) rfl, decodeAfterEncodeGivesTheCommand (.ctlwr 1) rfl, rfl⟩

/-! ## What the decoder answers to any word (R78, R79) -/

/-- A right answer of the decoder to a word: a well-formed command whose word it is, or an error where R79 lists it. -/
inductive RightAnswer (w : Word) : Except DecodeError Instr → Prop
  | ok {i : Instr} (hi : i.wellFormed = true) (hw : w = encode i) : RightAnswer w (.ok i)
  | error {e : DecodeError} (h : ListedIllegal w) : RightAnswer w (.error e)

/-- A format answers rightly when the word with zero reserved bits `z` is the command's and any other is listed. -/
theorem RightAnswer.of_reserved {w : Word} {n : Nat} {z : BitVec n} {i : Instr} {e : DecodeError}
    (hok : z = 0 → i.wellFormed = true ∧ w = encode i) (herr : z ≠ 0 → ListedIllegal w) :
    RightAnswer w (if z ≠ 0 then .error e else .ok i) := by
  by_cases hz : z = 0
  · rw [if_neg (not_not.mpr hz)]
    exact .ok (hok hz).1 (hok hz).2
  · rw [if_pos hz]
    exact .error (herr hz)

section
variable {w : Word} (op : Byte) (hop : (fieldOp w).toNat = op.toNat)
include hop

theorem rightAnswer_formatN {i : Instr}
    (hN : op.toNat ∈ [0x00, 0x01, 0x10, 0x13, 0x14, 0x21, 0x22, 0x23, 0x24, 0x25, 0x26, 0x27, 0x31])
    (hi : i.wellFormed = true ∧ encode i = encodeN op) : RightAnswer w (formatN w i) :=
  .of_reserved (fun hz => ⟨hi.1, (eq_encodeN_iff.mpr ⟨BitVec.eq_of_toNat_eq hop, hz⟩).trans hi.2.symm⟩)
    fun hz => .inr (.inl ⟨hop ▸ hN, hz⟩)

theorem rightAnswer_formatB8 {k : Byte → Instr} (hB8 : op.toNat ∈ [0x03, 0x04, 0x12, 0x28, 0x30])
    (hk : ∀ b, (k b).wellFormed = true ∧ encode (k b) = encodeB8 op b) : RightAnswer w (formatB8 w k) :=
  .of_reserved
    (fun hz => ⟨(hk _).1, (eq_encodeB8_iff.mpr ⟨BitVec.eq_of_toNat_eq hop, hz, rfl⟩).trans (hk _).2.symm⟩)
    fun hz => .inr (.inr (.inl ⟨hop ▸ hB8, hz⟩))

theorem rightAnswer_formatB16 {k : Byte → Byte → Instr} (hB16 : op.toNat ∈ [0x02, 0x20])
    (hk : ∀ a b, (k a b).wellFormed = true ∧ encode (k a b) = encodeB16 op a b) : RightAnswer w (formatB16 w k) :=
  .of_reserved
    (fun hz => ⟨(hk _ _).1, (eq_encodeB16_iff.mpr ⟨BitVec.eq_of_toNat_eq hop, hz, rfl, rfl⟩).trans (hk _ _).2.symm⟩)
    fun hz => .inr (.inr (.inr (.inl ⟨hop ▸ hB16, hz⟩)))

end

theorem rightAnswer_msgput {w : Word} (hop : (fieldOp w).toNat = 0x11) : RightAnswer w (formatP w .msgput) :=
  .of_reserved (fun hz => ⟨rfl, eq_encodeP_iff.mpr ⟨BitVec.eq_of_toNat_eq hop, hz, rfl, rfl⟩⟩)
    fun hz => .inr (.inr (.inr (.inr (.inl ⟨hop, hz⟩))))

theorem rightAnswer_ctlwr {w : Word} (hop : (fieldOp w).toNat = 0x30) : RightAnswer w (formatCtlwr w) := by
  by_cases hz : w.extractLsb' 8 16 = 0
  · rw [formatCtlwr, if_neg (not_not.mpr hz)]
    exact .of_reserved
      (fun hb => ⟨ctlwrOperandOk_iff.mpr hb, eq_encodeB8_iff.mpr ⟨BitVec.eq_of_toNat_eq hop, hz, rfl⟩⟩)
      fun hb => .inr (.inr (.inr (.inr (.inr ⟨hop, hb⟩))))
  · rw [formatCtlwr, if_pos hz]
    exact .error (.inr (.inr (.inl ⟨by simp [hop], hz⟩)))

/-- All that the decoder can answer, opcode by opcode. -/
theorem decode_rightAnswer (w : Word) : RightAnswer w (decode w) := by
  unfold decode
  split
  next hop => exact rightAnswer_formatN 0x00 hop (by decide) ⟨rfl, rfl⟩
  next hop => exact rightAnswer_formatN 0x01 hop (by decide) ⟨rfl, rfl⟩
  next hop => exact rightAnswer_formatB16 0x02 hop (by decide) fun _ _ => ⟨rfl, rfl⟩
  next hop => exact rightAnswer_formatB8 0x03 hop (by decide) fun _ => ⟨rfl, rfl⟩
  next hop => exact rightAnswer_formatB8 0x04 hop (by decide) fun _ => ⟨rfl, rfl⟩
  next hop => exact rightAnswer_formatN 0x10 hop (by decide) ⟨rfl, rfl⟩
  next hop => exact rightAnswer_msgput hop
  next hop => exact rightAnswer_formatB8 0x12 hop (by decide) fun _ => ⟨rfl, rfl⟩
  next hop => exact rightAnswer_formatN 0x13 hop (by decide) ⟨rfl, rfl⟩
  next hop => exact rightAnswer_formatN 0x14 hop (by decide) ⟨rfl, rfl⟩
  next hop => exact rightAnswer_formatB16 0x20 hop (by decide) fun _ _ => ⟨rfl, rfl⟩
  next hop => exact rightAnswer_formatN 0x21 hop (by decide) ⟨rfl, rfl⟩
  next hop => exact rightAnswer_formatN 0x22 hop (by decide) ⟨rfl, rfl⟩
  next hop => exact rightAnswer_formatN 0x23 hop (by decide) ⟨rfl, rfl⟩
  next hop => exact rightAnswer_formatN 0x24 hop (by decide) ⟨rfl, rfl⟩
  next hop => exact rightAnswer_formatN 0x25 hop (by decide) ⟨rfl, rfl⟩
  next hop => exact rightAnswer_formatN 0x26 hop (by decide) ⟨rfl, rfl⟩
  next hop => exact rightAnswer_formatN 0x27 hop (by decide) ⟨rfl, rfl⟩
  next hop => exact rightAnswer_formatB8 0x28 hop (by decide) fun _ => ⟨rfl, rfl⟩
  next hop => exact rightAnswer_ctlwr hop
  next hop => exact rightAnswer_formatN 0x31 hop (by decide) ⟨rfl, rfl⟩
  next =>
    simp only [imp_false] at *
    exact .error (.inl (by omega))

theorem listedIllegal_of_decode_error {w : Word} {e : DecodeError} (h : decode w = .error e) : ListedIllegal w := by
  have hr := decode_rightAnswer w
  rw [h] at hr
  cases hr with
  | error hl => exact hl

/-- Settles O2: the decoder's right answers. -/
theorem encodeAfterDecodeGivesTheWord : Obligations.EncodeAfterDecodeGivesTheWord := by
  intro w i h
  have hr := decode_rightAnswer w
  rw [h] at hr
  cases hr with
  | ok hi hw => exact ⟨hi, hw.symm⟩

/-! ## The rows of the opcode map (R77) -/

/-- The word of a well-formed command matches the command's row. -/
theorem encode_matches {i : Instr} (hi : i.wellFormed = true) : encode i &&& tableMask i = tableMatch i := by
  cases i with
  | nop => exact Laws.TableRow.nop hi
  | tinit => exact Laws.TableRow.tinit hi
  | gfmul a b => exact Laws.TableRow.gfmul a b hi
  | exprd b => exact Laws.TableRow.exprd b hi
  | logrd b => exact Laws.TableRow.logrd b hi
  | msgclr => exact Laws.TableRow.msgclr hi
  | msgput n v => exact Laws.TableRow.msgput n v hi
  | cwrd b => exact Laws.TableRow.cwrd b hi
  | rsgen => exact Laws.TableRow.rsgen hi
  | parrd => exact Laws.TableRow.parrd hi
  | classify a b => exact Laws.TableRow.classify a b hi
  | mclr => exact Laws.TableRow.mclr hi
  | mfind => exact Laws.TableRow.mfind hi
  | mtime => exact Laws.TableRow.mtime hi
  | mfmt => exact Laws.TableRow.mfmt hi
  | mplace => exact Laws.TableRow.mplace hi
  | mmask => exact Laws.TableRow.mmask hi
  | mbuild => exact Laws.TableRow.mbuild hi
  | mrdrow b => exact Laws.TableRow.mrdrow b hi
  | ctlwr b => exact Laws.TableRow.ctlwr b hi
  | stclr => exact Laws.TableRow.stclr hi

theorem matches_of_decode {w : Word} {i : Instr} (h : decode w = .ok i) : w &&& tableMask i = tableMatch i := by
  obtain ⟨hi, rfl⟩ := encodeAfterDecodeGivesTheWord w i h
  exact encode_matches hi

/-- The bits of a field that a mask keeps whole are those of the masked word. -/
theorem extractLsb'_of_masked {w mask m : Word} (start len : Nat) (h : w &&& mask = m)
    (hmask : mask.extractLsb' start len = BitVec.allOnes len) : w.extractLsb' start len = m.extractLsb' start len := by
  rw [← h, BitVec.extractLsb'_and, hmask, BitVec.and_allOnes]

theorem tableMask_fieldOp (r : Instr) : fieldOp (tableMask r) = BitVec.allOnes 8 := by
  cases r <;> simp [fieldOp, tableMask]

/-- The opcode of a word that matches a row is the row's. -/
theorem fieldOp_of_matches {w : Word} {r : Instr} (h : w &&& tableMask r = tableMatch r) :
    fieldOp w = fieldOp (tableMatch r) :=
  extractLsb'_of_masked 24 8 h (tableMask_fieldOp r)

/-- A word that matches a row is in none of R79's classes: its opcode and its reserved bits are the row's. -/
theorem not_listedIllegal_of_matches {w : Word} (r : Instr) (h : w &&& tableMask r = tableMatch r) :
    ¬ ListedIllegal w := by
  cases r with
  | nop | tinit | msgclr | rsgen | parrd | mclr | mfind | mtime | mfmt | mplace | mmask | mbuild | stclr =>
    rw [tableMask, tableMatch] at h
    have hop : fieldOp w = _ := extractLsb'_of_masked 24 8 h (by decide)
    have hz := extractLsb'_of_masked 0 24 h (by decide)
    simp [ListedIllegal, hop, hz]
  | exprd b | logrd b | cwrd b | mrdrow b =>
    rw [tableMask, tableMatch] at h
    have hop : fieldOp w = _ := extractLsb'_of_masked 24 8 h (by decide)
    have hz := extractLsb'_of_masked 8 16 h (by decide)
    simp [ListedIllegal, hop, hz]
  | gfmul a b | classify a b =>
    rw [tableMask, tableMatch] at h
    have hop : fieldOp w = _ := extractLsb'_of_masked 24 8 h (by decide)
    have hz := extractLsb'_of_masked 16 8 h (by decide)
    simp [ListedIllegal, hop, hz]
  | msgput n v =>
    rw [tableMask, tableMatch] at h
    have hop : fieldOp w = _ := extractLsb'_of_masked 24 8 h (by decide)
    have hz := extractLsb'_of_masked 21 3 h (by decide)
    simp [ListedIllegal, hop, hz]
  | ctlwr b =>
    rw [tableMask, tableMatch] at h
    have hop : fieldOp w = _ := extractLsb'_of_masked 24 8 h (by decide)
    have hz := extractLsb'_of_masked 8 16 h (by decide)
    have hb := extractLsb'_of_masked 1 7 h (by decide)
    simp [ListedIllegal, hop, hz, hb]

/-- No two rows have one opcode. -/
theorem tableRows_fieldOp_inj :
    ∀ r ∈ tableRows, ∀ r' ∈ tableRows, fieldOp (tableMatch r) = fieldOp (tableMatch r') → r = r' := by
  decide

/-- Every command belongs to a row. -/
theorem exists_tableRow (i : Instr) : ∃ r ∈ tableRows, tableMatch r = tableMatch i ∧ tableMask r = tableMask i := by
  cases i with
  | nop | tinit | msgclr | rsgen | parrd | mclr | mfind | mtime | mfmt | mplace | mmask | mbuild | stclr =>
    exact ⟨_, by decide, rfl, rfl⟩
  | gfmul a b => exact ⟨.gfmul 0 0, by decide, rfl, rfl⟩
  | exprd b => exact ⟨.exprd 0, by decide, rfl, rfl⟩
  | logrd b => exact ⟨.logrd 0, by decide, rfl, rfl⟩
  | msgput n v => exact ⟨.msgput 0 0, by decide, rfl, rfl⟩
  | cwrd b => exact ⟨.cwrd 0, by decide, rfl, rfl⟩
  | classify a b => exact ⟨.classify 0 0, by decide, rfl, rfl⟩
  | mrdrow b => exact ⟨.mrdrow 0, by decide, rfl, rfl⟩
  | ctlwr b => exact ⟨.ctlwr 0, by decide, rfl, rfl⟩

/-- A command with the opcode of a row belongs to it. -/
theorem tableRow_of_fieldOp {i r : Instr} (hr : r ∈ tableRows) (h : fieldOp (tableMatch i) = fieldOp (tableMatch r)) :
    tableMatch i = tableMatch r ∧ tableMask i = tableMask r := by
  obtain ⟨r', hr', hmatch, hmask⟩ := exists_tableRow i
  rw [← hmatch] at h
  cases tableRows_fieldOp_inj r' hr' r hr h
  exact ⟨hmatch.symm, hmask.symm⟩

/-- Settles O3: a word that matches a row is not illegal, and its opcode gives the row away. -/
theorem wordSpellsTheRowItMatches : Obligations.WordSpellsTheRowItMatches := by
  refine ⟨rfl, exists_tableRow, fun w r hr => ⟨fun h => ?spells, ?matching⟩, fun w r r' hr hr' h h' => ?unique⟩
  case spells =>
    cases hd : decode w with
    | ok i =>
      have hop := (fieldOp_of_matches (matches_of_decode hd)).symm.trans (fieldOp_of_matches h)
      exact ⟨i, rfl, (tableRow_of_fieldOp hr hop).1⟩
    | error e => exact absurd (listedIllegal_of_decode_error hd) (not_listedIllegal_of_matches r h)
  case matching =>
    rintro ⟨i, hd, hi⟩
    rw [← (tableRow_of_fieldOp hr (congrArg fieldOp hi)).2, ← hi, matches_of_decode hd]
  case unique =>
    exact tableRows_fieldOp_inj r hr r' hr' ((fieldOp_of_matches h).symm.trans (fieldOp_of_matches h'))

/-- Settles O4: the words in R79's classes are those that no command's row matches. -/
theorem undefinedAndReservedWordsAreIllegal : Obligations.UndefinedAndReservedWordsAreIllegal := by
  refine ⟨fun w hl s => ?_, fun w hl => ?_⟩
  · cases hd : decode w with
    | ok i => exact absurd hl (not_listedIllegal_of_matches i (matches_of_decode hd))
    | error e => exact issue_error hd s
  · cases hd : decode w with
    | ok i => exact ⟨i, rfl⟩
    | error e => exact absurd (listedIllegal_of_decode_error hd) hl

end Sys2Proof.Machine
end

section
/-! PROOFS of the family 30_encoding: the pseudo-instruction MSGLOAD (R82). Each MSGPUT of its expansion appends its
chunk, so the whole appends the bit string to the message that MSGCLR has emptied. -/

namespace Sys2Proof.Machine

/-! ## The value of a chunk, bit by bit (R82) -/

theorem chunkValue_concat (bs : List Bool) (b : Bool) : chunkValue (bs ++ [b]) = Nat.bit b (chunkValue bs) := by
  rw [chunkValue, List.foldl_append, Nat.bit_val]
  rfl

theorem chunkValue_lt (bs : List Bool) : chunkValue bs < 2 ^ bs.length := by
  induction bs using List.reverseRecOn with
  | nil => decide
  | append_singleton bs b ih =>
    rw [chunkValue_concat, List.length_append, List.length_singleton, Nat.pow_succ, Nat.bit_val]
    have := b.toNat_lt
    omega

/-- The first bit of a chunk is the most significant of its value. -/
theorem testBit_chunkValue (bs : List Bool) (k : Nat) (hk : k < bs.length) :
    (chunkValue bs).testBit (bs.length - 1 - k) = bs.getD k false := by
  induction bs using List.reverseRecOn with
  | nil => exact absurd hk (Nat.not_lt_zero k)
  | append_singleton bs b ih =>
    rw [List.length_append, List.length_singleton] at hk ⊢
    rw [chunkValue_concat]
    by_cases hlast : k = bs.length
    · rw [hlast, Nat.add_sub_cancel, Nat.sub_self, Nat.testBit_bit_zero]
      simp
    · rw [show bs.length + 1 - 1 - k = bs.length - 1 - k + 1 by omega, Nat.testBit_bit_succ, ih (by omega),
        List.getD_append _ _ _ _ (by omega)]

/-! ## MSGPUT of a chunk (R133) -/

theorem appendBits_append (msg : Vector Bool 32) (L : Nat) (bs cs : List Bool) :
    appendBits msg L (bs ++ cs) = appendBits (appendBits msg L bs) (L + bs.length) cs := by
  induction bs generalizing msg L with
  | nil => rfl
  | cons b bs ih =>
    rw [List.cons_append, appendBits, appendBits, ih, List.length_cons, Nat.add_right_comm, Nat.add_assoc]

theorem toNat_chunkLength {bs : List Bool} (h : bs.length ≤ 16) : (BitVec.ofNat 5 bs.length).toNat = bs.length :=
  BitVec.toNat_ofNat .. ▸ Nat.mod_eq_of_lt (by omega)

/-- The operands that MSGLOAD gives MSGPUT spell the chunk. -/
theorem putBits_chunk {bs : List Bool} (h : bs.length ≤ 16) :
    putBits (BitVec.ofNat 5 bs.length) (BitVec.ofNat 16 (chunkValue bs)) = bs := by
  apply List.ext_getElem
  · rw [putBits_length, toNat_chunkLength h]
  · intro k hk hk'
    simp only [putBits, toNat_chunkLength h, List.getElem_map, List.getElem_range, BitVec.getLsbD_ofNat,
      testBit_chunkValue bs k hk', List.getD_eq_getElem _ _ hk', Bool.and_eq_right_iff_imp, decide_eq_true_eq]
    omega

theorem chunkValue_ushiftRight (bs : List Bool) : BitVec.ofNat 16 (chunkValue bs) >>> bs.length = 0 := by
  apply BitVec.eq_of_toNat_eq
  rw [BitVec.toNat_ushiftRight, BitVec.toNat_ofNat, Nat.shiftRight_eq_div_pow]
  exact Nat.div_eq_of_lt ((Nat.mod_le _ _).trans_lt (chunkValue_lt bs))

/-- MSGPUT of a chunk that fits appends it to the message. -/
theorem exec_putChunk {s : State} {bs : List Bool} (hpos : 0 < bs.length) (hlen : bs.length ≤ 16)
    (hfit : s.msglen + bs.length ≤ 32) :
    exec (putChunk bs) s = complete (s.setMsg (appendBits s.msg s.msglen bs) (s.msglen + bs.length)) := by
  have hn := toNat_chunkLength hlen
  have hput : Completes s (putChunk bs) _ :=
    .msgput _ _ (by omega) (hn.symm ▸ chunkValue_ushiftRight bs) (hn.symm ▸ hfit)
  rw [putBits_chunk hlen, hn] at hput
  exact exec_of_completes hput

/-! ## The whole expansion -/

theorem execAll_cons_complete {i : Instr} {is : List Instr} {s t : State} (h : exec i s = complete t) :
    execAll (i :: is) s = execAll is t.succeed := by
  rw [execAll, h]
  rfl

/-- A later write of the message overwrites the one before. -/
theorem State.setMsg_succeed_setMsg (s : State) (m m' : Vector Bool 32) (n n' : Nat) :
    ((s.setMsg m n).succeed.setMsg m' n').succeed = (s.setMsg m' n').succeed := rfl

/-- The MSGPUTs of MSGLOAD append the bit string, from a state that a completed message command has left. -/
theorem execAll_putChunks (k : Nat) (bs : List Bool) (s : State) (hk : bs.length ≤ k) (hfit : s.msglen + bs.length ≤ 32)
    (hpar : s.parValid = false) (hok : s.lasterr = .ok) :
    execAll ((chunks16 k bs).map putChunk) s =
      .next (s.setMsg (appendBits s.msg s.msglen bs) (s.msglen + bs.length)).succeed := by
  have hnil : s = (s.setMsg (appendBits s.msg s.msglen []) s.msglen).succeed := by
    rw [appendBits, State.succeed, State.setMsg, ← hpar, ← hok]
  induction k generalizing bs s with
  | zero =>
    obtain rfl := List.eq_nil_of_length_eq_zero (Nat.le_zero.mp hk)
    exact congrArg _ hnil
  | succ k ih =>
    by_cases hbs : bs = []
    · subst hbs
      exact congrArg _ hnil
    · have hpos := List.length_pos_iff.mpr hbs
      have htake : (bs.take 16).length = min 16 bs.length := List.length_take
      have hdrop : (bs.drop 16).length = bs.length - 16 := List.length_drop
      have hput := exec_putChunk (s := s) (bs := bs.take 16) (by omega) (by omega) (by omega)
      rw [chunks16, if_neg hbs, List.map_cons, execAll_cons_complete hput,
        ih _ _ (by omega) (by simp only [State.succeed_msglen, State.setMsg_msglen]; omega) rfl rfl rfl,
        State.setMsg_succeed_setMsg, State.succeed_msg, State.setMsg_msg, State.succeed_msglen, State.setMsg_msglen,
        ← appendBits_append, Nat.add_assoc, ← List.length_append, List.take_append_drop]

/-- Settles O58: MSGCLR empties the message, and the MSGPUTs fill it. -/
theorem msgloadLoadsTheBitString : Obligations.MsgloadLoadsTheBitString := by
  intro bs s _ hlen
  have hload : execAll (msgload bs) s = .next ((s.setMsg (appendBits s.msg 0 bs) bs.length).succeed) := by
    rw [msgload, execAll_cons_complete (exec_of_completes .msgclr),
      execAll_putChunks _ bs (s.setMsglen 0).succeed le_rfl (by simpa using hlen) rfl rfl]
    simp only [State.succeed_msg, State.setMsglen_msg, State.succeed_msglen, State.setMsglen_msglen, Nat.zero_add]
    rfl
  refine ⟨_, hload, rfl, fun k hk => ?_⟩
  rw [State.succeed_msg, State.setMsg_msg, bitAt_appendBits _ _ _ (by omega), if_pos (by omega), Nat.sub_zero]

end Sys2Proof.Machine
end

section
/-! PROOFS of the family 40_field_arithmetic: the field GF(256) apart from its tables. Every nonzero byte is a power of
2 (R101), a product by a power of 2 is repeated doubling, and 2 has the order 255; the laws of R109 follow. -/

namespace Sys2Proof.Machine

/-! ## The powers of 2 -/

theorem xtimes_255 : xtimes 255 1 = 1 := (xtimes_mod 255).symm

/-- No smaller power of 2 is 1, by evaluation (R101's distinctness). -/
theorem eq_zero_of_xtimes_eq_one : ∀ k : Fin 255, xtimes k 1 = 1 → k = 0 := by decide +kernel

/-- Doubling neither makes nor loses 0. -/
theorem xtime_eq_zero_iff (v : Byte) : xtime v = 0 ↔ v = 0 := by
  revert v
  decide +kernel

theorem xtimes_one_ne_zero (k : Nat) : xtimes k 1 ≠ 0 := by
  induction k with
  | zero => decide
  | succ k ih => rwa [xtimes_succ, ne_eq, xtime_eq_zero_iff]

/-- The first 255 powers of 2 are distinct: equal powers multiplied up to `2 ^ 255 = 1` would make a smaller one 1. -/
theorem xtimes_inj {i j : Nat} (hi : i < 255) (hj : j < 255) (h : xtimes i 1 = xtimes j 1) : i = j := by
  wlog hij : i ≤ j generalizing i j
  · exact (this hj hi h.symm (Nat.le_of_not_le hij)).symm
  by_contra hne
  have hone : xtimes (255 - j + i) 1 = 1 := by
    rw [xtimes_add, h, ← xtimes_add, Nat.sub_add_cancel (Nat.le_of_lt hj), xtimes_255]
  have hzero := congrArg Fin.val (eq_zero_of_xtimes_eq_one ⟨255 - j + i, by omega⟩ hone)
  simp only [Fin.val_zero] at hzero
  omega

/-- Every nonzero byte is a power of 2. -/
theorem exists_xtimes_eq {a : Byte} (ha : a ≠ 0) : ∃ i, i < 255 ∧ xtimes i 1 = a :=
  have h := built_tables_hold (Vector.replicate 256 0)
  ⟨_, h.log_lt a ha, h.xtimes_log ha⟩

/-! ## The laws of the field product (R109) -/

/-- A product by a power of 2 is repeated doubling. -/
theorem fieldProduct_xtimes_one (i : Nat) (b : Byte) : fieldProduct (xtimes i 1) b = xtimes i b := by
  rw [fieldProduct_xtimes_left, fieldProduct_one_left]

theorem fieldProduct_comm (a b : Byte) : fieldProduct a b = fieldProduct b a := by
  by_cases ha : a = 0
  · rw [ha, fieldProduct_zero_left, fieldProduct_zero_right]
  by_cases hb : b = 0
  · rw [hb, fieldProduct_zero_left, fieldProduct_zero_right]
  obtain ⟨i, -, rfl⟩ := exists_xtimes_eq ha
  obtain ⟨j, -, rfl⟩ := exists_xtimes_eq hb
  rw [fieldProduct_xtimes_one, fieldProduct_xtimes_one, ← xtimes_add, ← xtimes_add, Nat.add_comm]

theorem fieldProduct_assoc (a b c : Byte) :
    fieldProduct (fieldProduct a b) c = fieldProduct a (fieldProduct b c) := by
  by_cases ha : a = 0
  · simp only [ha, fieldProduct_zero_left]
  obtain ⟨i, -, rfl⟩ := exists_xtimes_eq ha
  rw [fieldProduct_xtimes_one, fieldProduct_xtimes_left, fieldProduct_xtimes_one]

/-- The inverse of `2 ^ i` is `2 ^ (255 - i)`. -/
theorem exists_fieldProduct_eq_one {a : Byte} (ha : a ≠ 0) : ∃ b, fieldProduct a b = 1 := by
  obtain ⟨i, hi, rfl⟩ := exists_xtimes_eq ha
  refine ⟨xtimes (255 - i) 1, ?_⟩
  rw [fieldProduct_xtimes_one, ← xtimes_add, Nat.add_sub_cancel' (Nat.le_of_lt hi), xtimes_255]

theorem existsUnique_fieldProduct_eq_one {a : Byte} (ha : a ≠ 0) : ∃! b, fieldProduct a b = 1 := by
  obtain ⟨b, hb⟩ := exists_fieldProduct_eq_one ha
  refine ⟨b, hb, fun c hc => ?_⟩
  calc c = fieldProduct (fieldProduct a b) c := by rw [hb, fieldProduct_one_left]
    _ = fieldProduct b (fieldProduct a c) := by rw [fieldProduct_comm a b, fieldProduct_assoc]
    _ = b := by rw [hc, fieldProduct_comm, fieldProduct_one_left]

/-- Settles O25: the multiply through the tables is the field product, whose laws these are. -/
theorem multiplyObeysTheFieldLaws : Obligations.MultiplyObeysTheFieldLaws := by
  intro e l h
  rw [show gmul e l = fieldProduct from funext₂ (gmul_eq_fieldProduct h)]
  exact ⟨fieldProduct_zero_right, fieldProduct_zero_left, fieldProduct_comm, fieldProduct_one_left,
    fieldProduct_xor_right, fieldProduct_assoc, fun _ => existsUnique_fieldProduct_eq_one, fun _ _ => rfl⟩

/-! ## The tables entry by entry -/

section
variable {e l : Vector Byte 256} (h : TablesHold e l)
include h

theorem TablesHold.exp_ne_zero {i : Nat} (hi : i ≤ 255) : byteAt e i ≠ 0 := by
  rw [h.byteAt_exp i hi]
  exact xtimes_one_ne_zero i

theorem TablesHold.exp_inj {i j : Nat} (hi : i < 255) (hj : j < 255) (he : byteAt e i = byteAt e j) : i = j := by
  rw [h.byteAt_exp i (Nat.le_of_lt hi), h.byteAt_exp j (Nat.le_of_lt hj)] at he
  exact xtimes_inj hi hj he

/-- The log of a byte is the one index below 255 at which EXP holds it (R34, R102). -/
theorem TablesHold.log_eq {i : Nat} {v : Byte} (hi : i < 255) (hv : byteAt e i = v) :
    (byteAt l v.toNat).toNat = i := by
  have hne : v ≠ 0 := hv ▸ h.exp_ne_zero (Nat.le_of_lt hi)
  exact h.exp_inj (h.log_lt v hne) hi ((h.exp_log v hne).trans hv.symm)

theorem TablesHold.exp_255 : byteAt e 255 = 1 := (h.byteAt_exp 255 le_rfl).trans xtimes_255

end

end Sys2Proof.Machine
end

section
/-! PROOFS of the family 40_field_arithmetic: TINIT, GFMUL, EXPRD and LOGRD (R104 to R107), their words, their two ways
to end, and what the tables hold. -/

namespace Sys2Proof.Machine

/-! ## The words of an opcode by its format (R72 to R75, R79) -/

theorem spelledN {op : Byte} {i : Instr}
    (hop : op.toNat ∈ [0x00, 0x01, 0x10, 0x13, 0x14, 0x21, 0x22, 0x23, 0x24, 0x25, 0x26, 0x27, 0x31])
    (hi : i.wellFormed = true) (he : encode i = encodeN op) : SpelledN op i := fun w hw =>
  ⟨fun hz => (eq_encodeN_iff.mpr ⟨hw, hz⟩).trans he.symm ▸ decodeAfterEncodeGivesTheCommand i hi,
    fun hz => undefinedAndReservedWordsAreIllegal.1 w (.inr (.inl ⟨hw ▸ hop, hz⟩))⟩

theorem spelledB8 {op : Byte} {k : Byte → Instr} (hop : op.toNat ∈ [0x03, 0x04, 0x12, 0x28, 0x30])
    (hk : ∀ b, (k b).wellFormed = true ∧ encode (k b) = encodeB8 op b) : SpelledB8 op k := fun w hw =>
  ⟨fun hz => by
      have hdec := decodeAfterEncodeGivesTheCommand (k (fieldB w)) (hk _).1
      rwa [(hk _).2, ← eq_encodeB8_iff.mpr ⟨hw, hz, rfl⟩] at hdec,
    fun hz => undefinedAndReservedWordsAreIllegal.1 w (.inr (.inr (.inl ⟨hw ▸ hop, hz⟩)))⟩

theorem spelledB16 {op : Byte} {k : Byte → Byte → Instr} (hop : op.toNat ∈ [0x02, 0x20])
    (hk : ∀ a b, (k a b).wellFormed = true ∧ encode (k a b) = encodeB16 op a b) : SpelledB16 op k := fun w hw =>
  ⟨fun hz => by
      have hdec := decodeAfterEncodeGivesTheCommand (k (fieldA w) (fieldB w)) (hk _ _).1
      rwa [(hk _ _).2, ← eq_encodeB16_iff.mpr ⟨hw, hz, rfl, rfl⟩] at hdec,
    fun hz => undefinedAndReservedWordsAreIllegal.1 w (.inr (.inr (.inr (.inl ⟨hw ▸ hop, hz⟩))))⟩

theorem spelledN_tinit : SpelledN 0x01 .tinit := spelledN (by decide) rfl rfl

theorem spelledB16_gfmul : SpelledB16 0x02 .gfmul := spelledB16 (by decide) fun _ _ => ⟨rfl, rfl⟩

/-! ## The two ways a command ends, as statements spell them -/

theorem Fails.raises {s : State} {i : Instr} {e : ErrCode} (h : Fails s i e) : Raises i s e := exec_of_fails h

/-- A completing command leaves its effect and E_OK in LASTERR (R25). -/
theorem Completes.exec_eq {s t : State} {i : Instr} (h : Completes s i t) :
    exec i s = .next { t with lasterr := .ok } := exec_of_completes h

/-! ## The doubling step (R101) -/

/-- Reducing a 9-bit value that exceeds 255 clears bit 8. -/
theorem xor_fieldPoly_lt : ∀ v : Byte, 2 * v.toNat > 255 → 2 * v.toNat ^^^ Config.fieldPoly < 256 := by
  decide +kernel

/-- Settles O20: the two branches of the doubling step; the low 8 bits of 0x11D are 0x1D. -/
theorem doublingStepReducesOnce : Obligations.DoublingStepReducesOnce := by
  refine fun v => ⟨fun h => ?shift, fun h => ?reduce⟩
  case shift =>
    rw [xtime, if_neg (Nat.not_lt.mpr h), BitVec.toNat_ofNat]
    exact Nat.mod_eq_of_lt (Nat.lt_succ_of_le h)
  case reduce =>
    have hx : xtime v = BitVec.ofNat 8 (2 * v.toNat ^^^ Config.fieldPoly) := by rw [xtime, if_pos h]
    refine ⟨?_, hx.trans (BitVec.ofNat_xor ..)⟩
    rw [hx, BitVec.toNat_ofNat]
    exact Nat.mod_eq_of_lt (xor_fieldPoly_lt v h)

/-! ## TINIT (R104) -/

/-- The index that the loop of R102 leaves for a byte is one of its 255, and EXP holds the byte there. -/
theorem byteAt_of_lastIndexOf {e : Vector Byte 256} {v : Byte} {i : Nat}
    (h : lastIndexOf v (e.toList.take 255) = some i) : i < 255 ∧ byteAt e i = v := by
  obtain ⟨hget, -⟩ := lastIndexOf_some h
  rw [List.getElem?_take] at hget
  split at hget
  · next hlt => exact ⟨hlt, by rw [byteAt, entry_toList, List.getD_eq_getElem?_getD, hget, Option.getD_some]⟩
  · cases hget

/-- TINIT does not write `LOG[0]`: 0 is no power of 2 (R102). -/
theorem byteAt_buildLog_zero (l : Vector Byte 256) : byteAt (buildLog buildExp l) 0 = byteAt l 0 := by
  rw [byteAt_buildLog _ _ 0 (by decide)]
  split
  · next i hi =>
    obtain ⟨hlt, hzero⟩ := byteAt_of_lastIndexOf hi
    exact absurd hzero ((built_tables_hold l).exp_ne_zero (Nat.le_of_lt hlt))
  · rfl

/-- Settles O21: the built tables hold the field's tables, and `LOG[0]` is not written. -/
theorem tinitBuildsTheTables : Obligations.TinitBuildsTheTables := by
  refine ⟨spelledN_tinit, fun s hs => (Completes.tinit_again hs).exec_eq, fun s hs => ?_⟩
  have h := built_tables_hold s.log
  refine ⟨_, (Completes.tinit hs).exec_eq, rfl, h.exp_zero, fun i hi hi' => ?double, h.exp_255,
    fun i j hi hj => h.exp_inj (by omega) (by omega),
    fun i hi => ⟨h.exp_ne_zero (by omega), h.log_eq (by omega) rfl⟩,
    fun v hv => ⟨Nat.le_of_lt_succ (h.log_lt v hv), h.exp_log v hv⟩, byteAt_buildLog_zero s.log⟩
  case double =>
    have hdouble := h.exp_succ (i - 1) (by omega)
    rwa [Nat.sub_add_cancel hi] at hdouble

/-- But for `LOG[0]` the log table that TINIT builds is one and the same (R102). -/
theorem tail_buildLog (l l' : Vector Byte 256) :
    (buildLog buildExp l).toList.tail = (buildLog buildExp l').toList.tail := by
  apply List.ext_getElem
  · simp
  · intro i hi _
    simp only [List.length_tail, Vector.length_toList] at hi
    have hv : (BitVec.ofNat 8 (i + 1)).toNat = i + 1 := Nat.mod_eq_of_lt (by omega)
    have h := byteAt_buildLog_of_ne_zero l l' (v := BitVec.ofNat 8 (i + 1)) fun h0 => by simp [h0] at hv
    rw [hv] at h
    simpa [byteAt, entry, show i + 1 < 256 by omega] using h

/-- Settles O22, by evaluation: EXP is closed, and LOG is once its old content is set to a fixed one. -/
theorem tablesAreThePublishedOnes : Obligations.TablesAreThePublishedOnes := by
  refine fun s hs => ⟨_, (Completes.tinit hs).exec_eq, ?exp, ?log⟩
  case exp =>
    rw [State.setTables_exp]
    decide +kernel
  case log =>
    rw [State.setTables_log, tail_buildLog s.log (Vector.replicate 256 0)]
    decide +kernel

/-! ## GFMUL (R105) -/

theorem exec_gfmul_of_tables {s : State} (ht : s.tblValid = true) (h : TablesHold s.exp s.log) (a b : Byte) :
    exec (.gfmul a b) s = .next { s with result := (fieldProduct a b).zeroExtend 32, lasterr := .ok } := by
  rw [← gmul_eq_fieldProduct h]
  exact (Completes.gfmul a b ht).exec_eq

/-- A zero operand gives 0, whatever the tables hold. -/
theorem exec_gfmul_zero {s : State} (ht : s.tblValid = true) {a b : Byte} (hab : a = 0 ∨ b = 0) :
    exec (.gfmul a b) s = .next { s with result := 0, lasterr := .ok } := by
  have hg : gmul s.exp s.log a b = 0 := if_pos hab
  have hexec := (Completes.gfmul a b ht).exec_eq
  rwa [hg] at hexec

/-- Settles O23: the two branches of the multiply. -/
theorem gfmulMultipliesThroughTheTables : Obligations.GfmulMultipliesThroughTheTables := by
  refine ⟨spelledB16_gfmul, fun a b s ht => (Fails.gfmul_notable a b ht).raises, fun a b s ht => exec_gfmul_zero ht,
    fun a b s ht ha hb => ?_⟩
  rw [← gmul_of_ne_zero s.exp s.log ha hb]
  exact (Completes.gfmul a b ht).exec_eq

/-- Settles O24: the multiply through the tables is the field product; the four examples are evaluated there. -/
theorem gfmulGivesTheFieldProduct : Obligations.GfmulGivesTheFieldProduct := by
  refine ⟨spelledB16_gfmul, fun s => ⟨fun ht a b => (Fails.gfmul_notable a b ht).raises,
    fun ht a b => (Completes.gfmul a b ht).exec_eq,
    fun ht a => ⟨exec_gfmul_zero ht (.inr rfl), exec_gfmul_zero ht (.inl rfl)⟩, fun ht h => ?_⟩⟩
  have hmul := exec_gfmul_of_tables ht h
  refine ⟨hmul, fun a b => ?comm, fun b => ?one, ?_, ?_, ?_, ?_⟩
  case comm => rw [hmul, hmul, fieldProduct_comm]
  case one => rw [hmul, fieldProduct_one_left]
  · rw [hmul, show fieldProduct 0x02 0x80 = 0x1D by decide]; rfl
  · rw [hmul, show fieldProduct 0x02 0x8E = 0x01 by decide]; rfl
  · rw [hmul, show fieldProduct 0x47 0x8E = 0xAD by decide]; rfl
  · rw [hmul, show fieldProduct 0x53 0xCA = 0x8F by decide]; rfl

/-! ## EXPRD and LOGRD (R106, R107) -/

/-- Settles O26: the corner values are powers of 2. -/
theorem exprdReadsTheExpTable : Obligations.ExprdReadsTheExpTable := by
  refine ⟨spelledB8 (by decide) fun _ => ⟨rfl, rfl⟩, fun b s ht => (Fails.exprd_notable b ht).raises,
    fun b s ht => (Completes.exprd b ht).exec_eq, fun s h => ⟨h.exp_zero, h.exp_255, ?_, ?_⟩⟩
  · exact (h.byteAt_exp 8 (by decide)).trans (by decide)
  · exact (h.byteAt_exp 25 (by decide)).trans (by decide)

/-- A log is read off the power of 2 that the byte is. -/
theorem TablesHold.log_of_xtimes {e l : Vector Byte 256} (h : TablesHold e l) {i : Nat} {v : Byte} (hi : i < 255)
    (hv : xtimes i 1 = v) : byteAt l v.toNat = BitVec.ofNat 8 i := by
  rw [← h.log_eq hi ((h.byteAt_exp i (Nat.le_of_lt hi)).trans hv), BitVec.ofNat_toNat, BitVec.setWidth_eq]

/-- Settles O27: E_LOGZERO comes first; the corner values are the exponents of powers of 2. -/
theorem logrdReadsTheLogTable : Obligations.LogrdReadsTheLogTable := by
  refine ⟨spelledB8 (by decide) fun _ => ⟨rfl, rfl⟩, fun s => Fails.logrd_logzero.raises,
    fun b s hb ht => (Fails.logrd_notable b hb ht).raises, fun b s hb ht => (Completes.logrd b hb ht).exec_eq,
    fun s h => ⟨fun b hb => Nat.le_of_lt_succ (h.log_lt b hb), ?_, ?_, ?_⟩⟩
  · exact h.log_of_xtimes (i := 0) (v := 1) (by decide) rfl
  · exact h.log_of_xtimes (i := 254) (v := 0x8E) (by decide) (by decide +kernel)
  · exact h.log_of_xtimes (i := 25) (v := 3) (by decide) (by decide +kernel)

end Sys2Proof.Machine
end

section
/-! PROOFS of the family 40_field_arithmetic: RSGEN leaves the polynomial remainder (R134, R137). After `k` steps of the
division the buffer is what is left of the dividend when the first `k` quotient coefficients times the generator are
taken off; the coefficient of step `k` is the pivot that the step clears. -/

namespace Sys2Proof.Machine

/-! ## One step of the division -/

/-- Coefficient `k` of `c·x^i·g(x)`, counted from the high end: what the step at `i` adds to the buffer (R134). -/
def stepTerm (c : Byte) (i k : Nat) : Byte :=
  (if k = i then c else 0) ^^^ (if k = i + 1 then fieldProduct 0x03 c else 0)
    ^^^ (if k = i + 2 then fieldProduct 0x20 c else 0)

theorem stepTerm_zero (i k : Nat) : stepTerm 0 i k = 0 := by
  simp only [stepTerm, fieldProduct_zero_right, ite_self]
  rfl

theorem stepTerm_self (c : Byte) (i : Nat) : stepTerm c i i = c := by
  simp [stepTerm]

theorem stepTerm_of_lt (c : Byte) {i k : Nat} (h : k < i) : stepTerm c i k = 0 := by
  rw [stepTerm, if_neg (by omega), if_neg (by omega), if_neg (by omega)]
  rfl

/-- Adding `x` to one entry of a buffer. -/
theorem getD_set_xor {B : List Byte} {i : Nat} (hi : i < B.length) (x : Byte) (k : Nat) :
    (B.set i (B.getD i 0 ^^^ x)).getD k 0 = B.getD k 0 ^^^ (if k = i then x else 0) := by
  by_cases h : k = i
  · subst h
    simp [hi]
  · simp [h, Ne.symm h]

/-- A step adds the pivot times the generator, also where the pivot is 0 and the step does nothing. -/
theorem divStep_getD {B : List Byte} {i : Nat} (hi : i + 2 < B.length) (k : Nat) :
    (divStep fieldProduct B i).getD k 0 = B.getD k 0 ^^^ stepTerm (B.getD i 0) i k := by
  by_cases hc : B.getD i 0 = 0
  · simp only [divStep, hc, if_true, stepTerm_zero]
    exact BitVec.xor_zero.symm
  · simp only [divStep, if_neg hc, List.range_succ, List.range_zero, List.nil_append, List.cons_append,
      List.foldl_cons, List.foldl_nil]
    rw [getD_set_xor (by simp only [List.length_set]; omega), getD_set_xor (by simp only [List.length_set]; omega),
      getD_set_xor (by omega)]
    simp only [Config.gen, List.getD_cons_zero, List.getD_cons_succ, fieldProduct_one_left, stepTerm, Nat.add_zero,
      BitVec.xor_assoc]

/-! ## The product by the generator, one quotient coefficient at a time -/

theorem getD_append_singleton_eq_xor (q : List Byte) (c : Byte) (i : Nat) :
    (q ++ [c]).getD i 0 = q.getD i 0 ^^^ (if i = q.length then c else 0) := by
  rcases Nat.lt_trichotomy i q.length with h | rfl | h
  · rw [List.getD_append _ _ _ _ h, if_neg (by omega)]
    exact BitVec.xor_zero.symm
  · simp
  · rw [if_neg (by omega), List.getD_eq_default _ _ (by simp; omega), List.getD_eq_default _ _ (by omega)]
    rfl

/-- A product by a term that a condition picks. -/
theorem fieldProduct_ite (p : Prop) [Decidable p] (a c : Byte) :
    fieldProduct a (if p then c else 0) = if p then fieldProduct a c else 0 := by
  rw [apply_ite (fieldProduct a), fieldProduct_zero_right]

/-- A sum that a condition picks is the sum of the terms that it picks. -/
theorem ite_xor_zero (p : Prop) [Decidable p] (a b : Byte) :
    (if p then a ^^^ b else 0) = (if p then a else 0) ^^^ if p then b else 0 := by
  split
  · rfl
  · exact BitVec.xor_self.symm

/-- The product by the generator is additive in the quotient's last coefficient. -/
theorem productCoeff_append (q : List Byte) (c : Byte) (k : Nat) :
    productCoeff (q ++ [c]) k = productCoeff q k ^^^ stepTerm c q.length k := by
  have h1 : k = q.length + 1 ↔ 1 ≤ k ∧ k - 1 = q.length := by omega
  have h2 : k = q.length + 2 ↔ 2 ≤ k ∧ k - 2 = q.length := by omega
  simp only [productCoeff, stepTerm, getD_append_singleton_eq_xor, fieldProduct_xor_right, fieldProduct_ite,
    ite_xor_zero, h1, h2, ite_and]
  ac_rfl

/-! ## The whole division -/

/-- The buffer `B` after the steps at the first `k` positions (R134). -/
def bufferAfter (B : List Byte) (k : Nat) : List Byte := (List.range k).foldl (divStep fieldProduct) B

/-- The pivots of the first `k` steps: the quotient's coefficients. -/
def quotientAfter (B : List Byte) (k : Nat) : List Byte := (List.range k).map fun i => (bufferAfter B i).getD i 0

theorem divide_eq_bufferAfter (cw : List Byte) : divide fieldProduct cw = bufferAfter (cw ++ [0, 0]) cw.length := rfl

theorem bufferAfter_succ (B : List Byte) (k : Nat) :
    bufferAfter B (k + 1) = divStep fieldProduct (bufferAfter B k) k := by
  rw [bufferAfter, List.range_succ, List.foldl_append]
  rfl

theorem bufferAfter_length (B : List Byte) (k : Nat) : (bufferAfter B k).length = B.length := by
  induction k with
  | zero => rfl
  | succ k ih => rw [bufferAfter_succ, divStep_length, ih]

theorem bufferAfter_succ_getD {B : List Byte} {k : Nat} (hk : k + 2 < B.length) (i : Nat) :
    (bufferAfter B (k + 1)).getD i 0 =
      (bufferAfter B k).getD i 0 ^^^ stepTerm ((bufferAfter B k).getD k 0) k i := by
  rw [bufferAfter_succ, divStep_getD (by rwa [bufferAfter_length])]

theorem quotientAfter_length (B : List Byte) (k : Nat) : (quotientAfter B k).length = k := by
  simp [quotientAfter]

theorem quotientAfter_succ (B : List Byte) (k : Nat) :
    quotientAfter B (k + 1) = quotientAfter B k ++ [(bufferAfter B k).getD k 0] := by
  rw [quotientAfter, List.range_succ, List.map_append]
  rfl

/-- What moves from the buffer to the product leaves their sum. -/
theorem xor_xor_xor_cancel (p b x : Byte) : p ^^^ x ^^^ (b ^^^ x) = p ^^^ b := by
  rw [show p ^^^ x ^^^ (b ^^^ x) = p ^^^ b ^^^ (x ^^^ x) by ac_rfl, BitVec.xor_self, BitVec.xor_zero]

/-- Dividend = quotient so far · generator + buffer, at every coefficient. -/
theorem getD_eq_productCoeff_xor_buffer {B : List Byte} {k : Nat} (hk : k + 1 < B.length) (i : Nat) :
    B.getD i 0 = productCoeff (quotientAfter B k) i ^^^ (bufferAfter B k).getD i 0 := by
  induction k with
  | zero =>
    simp only [quotientAfter, productCoeff, bufferAfter, List.range_zero, List.map_nil, List.foldl_nil,
      List.getD_nil, fieldProduct_zero_right, ite_self]
    exact BitVec.zero_xor.symm
  | succ k ih =>
    rw [quotientAfter_succ, productCoeff_append, quotientAfter_length, bufferAfter_succ_getD hk, xor_xor_xor_cancel,
      ih (by omega)]

/-- The positions that the division has passed are 0. -/
theorem bufferAfter_getD_of_lt {B : List Byte} {k : Nat} (hk : k + 1 < B.length) {i : Nat} (hi : i < k) :
    (bufferAfter B k).getD i 0 = 0 := by
  induction k with
  | zero => exact absurd hi (Nat.not_lt_zero i)
  | succ k ih =>
    rw [bufferAfter_succ_getD hk]
    rcases Nat.lt_succ_iff_lt_or_eq.mp hi with hlt | rfl
    · rw [ih (by omega) hlt, stepTerm_of_lt _ hlt]
      rfl
    · rw [stepTerm_self]
      exact BitVec.xor_self

/-- The division of R134 gives the remainder of R137, for codeword lists of any length. -/
theorem isParityOf_rsParity (cw : List Byte) : IsParityOf (rsParity fieldProduct cw) cw := by
  have hlen : (cw ++ [0, 0]).length = cw.length + 2 := by simp
  refine ⟨quotientAfter (cw ++ [0, 0]) cw.length, quotientAfter_length _ _, fun i hi => ?_⟩
  rw [getD_eq_productCoeff_xor_buffer (k := cw.length) (by omega), rsParity, divide_eq_bufferAfter]
  congr 1
  by_cases h0 : i = cw.length
  · rw [if_pos h0, h0]
    rfl
  by_cases h1 : i = cw.length + 1
  · rw [if_neg h0, if_pos h1, h1]
    rfl
  · rw [if_neg h0, if_neg h1, bufferAfter_getD_of_lt (by omega) (by omega)]

/-! ## RSGEN -/

/-- With the tables built RSGEN divides over the field (R134). -/
theorem messageParity_of_tables {s : State} (h : TablesHold s.exp s.log) :
    messageParity s = rsParity fieldProduct (pack s.msg s.msglen) := by
  rw [messageParity, show gmul s.exp s.log = fieldProduct from funext₂ (gmul_eq_fieldProduct h)]

/-- The parity word holds PAR[0] above PAR[1] (R134, R136). -/
theorem parityWord_toNat (p : Vector Byte 2) :
    (parityWord p).toNat = 256 * (byteAt p 0).toNat + (byteAt p 1).toNat := by
  have h0 := (byteAt p 0).isLt
  have h1 := (byteAt p 1).isLt
  rw [parityWord, BitVec.zeroExtend, BitVec.toNat_setWidth, BitVec.toNat_append,
    ← Nat.shiftLeft_add_eq_or_of_lt h1, Nat.shiftLeft_eq]
  omega

/-- Settles O33: the division gives the remainder, and RESULT its two bytes. -/
theorem rsgenLeavesThePolynomialRemainder : Obligations.RsgenLeavesThePolynomialRemainder := by
  intro s ht h hl
  refine ⟨_, (Completes.rsgen ht hl).exec_eq, rfl, ?_, parityWord_toNat (messageParity s)⟩
  simp only [State.setResult_par, State.setPar_par, messageParity_of_tables h]
  exact isParityOf_rsParity _

end Sys2Proof.Machine
end

section
/-! PROOFS of the family 41_message_parity: packing (R131) and the commands MSGCLR, MSGPUT, CWRD, RSGEN and PARRD (R132
to R136). -/

namespace Sys2Proof.Machine

/-! ## Packing (R131) -/

/-- The term that message bit `u` of a group adds to its codeword sets bit `7 - u` alone. -/
theorem getLsbD_single {t u : Nat} (ht : t < 8) (hu : u < 8) (p : Prop) [Decidable p] :
    (if p then (1 : Byte) <<< (7 - u) else 0).getLsbD (7 - t) = (decide (u = t) && decide p) := by
  have hplace : 7 - u = 7 - t ↔ u = t := by omega
  split
  · next hp =>
    rw [show (1 : Byte) <<< (7 - u) = BitVec.twoPow 8 (7 - u) from rfl, BitVec.getLsbD_twoPow]
    simp [hp, hplace, Nat.lt_succ_of_le (Nat.sub_le 7 u)]
  · next hp => simp [hp]

/-- A codeword has the bits that some term sets. -/
theorem getLsbD_foldl_or_single (c : Nat → Prop) [DecidablePred c] {t : Nat} (ht : t < 8) (us : List Nat)
    (hus : ∀ u ∈ us, u < 8) (p : Byte) :
    (us.foldl (fun p u => p ||| (if c u then (1 : Byte) <<< (7 - u) else 0)) p).getLsbD (7 - t) =
      (p.getLsbD (7 - t) || (decide (t ∈ us) && decide (c t))) := by
  induction us generalizing p with
  | nil => simp
  | cons u us ih =>
    rw [List.foldl_cons, ih fun v hv => hus v (List.mem_cons_of_mem u hv), BitVec.getLsbD_or,
      getLsbD_single ht (hus u List.mem_cons_self)]
    by_cases h : u = t
    · subst h
      by_cases hc : c u <;> simp [hc]
    · simp [h, Ne.symm h]

/-- Bit `7 - t` of a codeword is bit `t` of its group, 0 past the message's end. -/
theorem codeword_getLsbD (msg : Vector Bool 32) (L k : Nat) {t : Nat} (ht : t < 8) :
    (codeword msg L k).getLsbD (7 - t) = (decide (8 * k + t < L) && bitAt msg (8 * k + t)) := by
  rw [codeword, getLsbD_foldl_or_single _ ht _ fun u hu => List.mem_range.mp hu]
  simp [ht]

/-- Settles O28: each codeword bit by bit. -/
theorem packingPutsTheEarliestBitHighest : Obligations.PackingPutsTheEarliestBitHighest := by
  refine fun msg L => ⟨pack_length msg L, fun k t hk ht => ?_⟩
  rw [pack_getD msg L k hk, codeword_getLsbD msg L k ht]

/-! ## The commands (R132 to R136) -/

theorem spelledP {op : Byte} {k : BitVec 5 → BitVec 16 → Instr} (hop : op.toNat = 0x11)
    (hk : ∀ n v, (k n v).wellFormed = true ∧ encode (k n v) = encodeP op n v) : SpelledP op k := fun w hw =>
  ⟨fun hz => by
      have hdec := decodeAfterEncodeGivesTheCommand (k (fieldN w) (fieldV w)) (hk _ _).1
      rwa [(hk _ _).2, ← eq_encodeP_iff.mpr ⟨hw, hz, rfl, rfl⟩] at hdec,
    fun hz => undefinedAndReservedWordsAreIllegal.1 w
      (.inr (.inr (.inr (.inr (.inl ⟨(congrArg BitVec.toNat hw).trans hop, hz⟩)))))⟩

/-- Settles O29: MSGCLR has no check. -/
theorem msgclrEmptiesTheMessage : Obligations.MsgclrEmptiesTheMessage :=
  ⟨spelledN (by decide) rfl rfl, fun _ => Completes.msgclr.exec_eq⟩

/-- MSGPUT's bit list read at an index: bit `n - 1 - k` of the operand (R133). -/
theorem putBits_getD {n : BitVec 5} (v : BitVec 16) {k : Nat} (hk : k < n.toNat) :
    (putBits n v).getD k false = v.getLsbD (n.toNat - 1 - k) := by
  rw [List.getD_eq_getElem _ _ (by rwa [putBits_length])]
  simp [putBits]

/-- Settles O30: the three checks in their order, then the bits that the append writes and those it keeps. -/
theorem msgputAppendsTheBits : Obligations.MsgputAppendsTheBits := by
  refine ⟨spelledP rfl fun _ _ => ⟨rfl, rfl⟩, fun n v s => ⟨fun hn => (Fails.msgput_range n v (.inl hn)).raises,
    fun hv => (Fails.msgput_range n v (.inr hv)).raises,
    fun h1 h16 hv h => (Fails.msgput_msgovf n v (by omega) hv h).raises, fun h1 h16 hv h => ?completes⟩⟩
  have hfit : s.msglen + (putBits n v).length ≤ 32 := by rwa [putBits_length]
  refine ⟨_, (Completes.msgput n v (by omega) hv h).exec_eq, rfl, fun k hk => ?appended, fun k hk => ?kept⟩
  case appended =>
    rw [State.setMsg_msg, bitAt_appendBits _ _ _ hfit, putBits_length, if_pos (by omega), Nat.add_sub_cancel_left,
      putBits_getD v hk]
  case kept => rw [State.setMsg_msg, bitAt_appendBits _ _ _ hfit, if_neg (by omega)]

/-- Settles O31: the codeword count is the one check. -/
theorem cwrdReadsOneCodeword : Obligations.CwrdReadsOneCodeword :=
  ⟨spelledB8 (by decide) fun _ => ⟨rfl, rfl⟩,
    fun b _ => ⟨fun h => (Fails.cwrd_range b h).raises, fun h => (Completes.cwrd b h).exec_eq⟩⟩

/-- Settles O32: the two checks in their order, then the division. -/
theorem rsgenDividesTheMessage : Obligations.RsgenDividesTheMessage :=
  ⟨spelledN (by decide) rfl rfl,
    fun _ => ⟨fun ht => (Fails.rsgen_notable ht).raises, fun ht hl => (Fails.rsgen_nomsg ht hl).raises,
      fun ht hl => (Completes.rsgen ht hl).exec_eq⟩⟩

/-- Settles O35: RSGEN leaves in RESULT the word that PARRD reads from PAR. -/
theorem parrdReadsTheParity : Obligations.ParrdReadsTheParity := by
  refine ⟨spelledN (by decide) rfl rfl, fun s => ⟨fun hp => (Fails.parrd_nopar hp).raises,
    fun hp => (Completes.parrd hp).exec_eq, fun t ht hok => ?afterRsgen⟩⟩
  case afterRsgen =>
    rcases exec_next ht with ⟨e, he, rfl⟩ | ⟨u, hu, rfl⟩
    · exact absurd hok he.ne_ok
    · cases hu with
      | rsgen => exact (Completes.parrd rfl).exec_eq

end Sys2Proof.Machine
end

section
/-! PROOFS of the family 41_message_parity: the parity is the unique remainder, and what follows (R137). A message with
its parity behind it is a multiple of the generator; the other factor, the quotient, is determined by the coefficients
from the highest down. Each consequence names the quotient of its message. -/

namespace Sys2Proof.Machine

/-! ## A message with its parity is a multiple of the generator -/

/-- The product by 0, with 0 spelled as `simp` leaves it. -/
@[simp] theorem fieldProduct_zeroBits (a : Byte) : fieldProduct a 0#8 = 0#8 := fieldProduct_zero_right a

theorem productCoeff_of_le {q : List Byte} {i : Nat} (h : q.length + 2 ≤ i) : productCoeff q i = 0 := by
  rw [productCoeff, List.getD_eq_default _ _ (by omega), List.getD_eq_default _ _ (by omega),
    List.getD_eq_default _ _ (by omega)]
  simp

/-- The remainder stands in the two places behind the message. -/
theorem getD_append_pair (cw : List Byte) (a b : Byte) (i : Nat) :
    (cw ++ [a, b]).getD i 0 =
      (cw ++ [0, 0]).getD i 0 ^^^ (if i = cw.length then a else if i = cw.length + 1 then b else 0) := by
  rcases Nat.lt_or_ge i cw.length with h | h
  · rw [List.getD_append _ _ _ _ h, List.getD_append _ _ _ _ h, if_neg (by omega), if_neg (by omega)]
    exact BitVec.xor_zero.symm
  · obtain ⟨j, rfl⟩ := Nat.exists_eq_add_of_le h
    rcases j with _ | _ | j <;> simp

theorem getD_append_zeros (cw : List Byte) (i : Nat) : (cw ++ [0, 0]).getD i 0 = cw.getD i 0 := by
  rcases Nat.lt_or_ge i cw.length with h | h
  · exact List.getD_append _ _ _ _ h
  · obtain ⟨j, rfl⟩ := Nat.exists_eq_add_of_le h
    rcases j with _ | _ | j <;> simp

/-- The remainder of R137 in one equation of polynomials: message and parity together are `q·g`. -/
theorem isParityOf_iff {p : Vector Byte 2} {cw : List Byte} :
    IsParityOf p cw ↔ ∃ q : List Byte, q.length = cw.length ∧
      ∀ i, (cw ++ [byteAt p 0, byteAt p 1]).getD i 0 = productCoeff q i := by
  refine exists_congr fun q => and_congr_right fun hlen => ⟨fun h i => ?multiple, fun h i _ => ?remainder⟩
  case multiple =>
    rcases Nat.lt_or_ge i (cw.length + 2) with hi | hi
    · rw [getD_append_pair, h i hi, BitVec.xor_assoc, BitVec.xor_self, BitVec.xor_zero]
    · rw [productCoeff_of_le (hlen ▸ hi), List.getD_eq_default _ _ (by simpa using hi)]
  case remainder => rw [← h i, getD_append_pair cw (byteAt p 0), BitVec.xor_assoc, BitVec.xor_self, BitVec.xor_zero]

/-! ## The remainder is unique -/

/-- Quotients whose products have the same first coefficients have the same first coefficients. -/
theorem getD_eq_of_productCoeff_eq {q q' : List Byte} {n : Nat} (h : ∀ i, i < n → productCoeff q i = productCoeff q' i)
    {i : Nat} (hi : i < n) : q.getD i 0 = q'.getD i 0 := by
  induction i using Nat.strongRecOn with
  | ind i ih =>
    have h1 : (if 1 ≤ i then fieldProduct 0x03 (q.getD (i - 1) 0) else 0) =
        if 1 ≤ i then fieldProduct 0x03 (q'.getD (i - 1) 0) else 0 :=
      ite_congr rfl (fun _ => by rw [ih (i - 1) (by omega) (by omega)]) fun _ => rfl
    have h2 : (if 2 ≤ i then fieldProduct 0x20 (q.getD (i - 2) 0) else 0) =
        if 2 ≤ i then fieldProduct 0x20 (q'.getD (i - 2) 0) else 0 :=
      ite_congr rfl (fun _ => by rw [ih (i - 2) (by omega) (by omega)]) fun _ => rfl
    have hcoeff := h i hi
    rwa [productCoeff, productCoeff, h1, h2, BitVec.xor_left_inj, BitVec.xor_left_inj] at hcoeff

theorem IsParityOf.unique {p p' : Vector Byte 2} {cw : List Byte} (h : IsParityOf p cw) (h' : IsParityOf p' cw) :
    p = p' := by
  obtain ⟨q, hlen, hq⟩ := isParityOf_iff.mp h
  obtain ⟨q', hlen', hq'⟩ := isParityOf_iff.mp h'
  have hcoeff : ∀ i, i < cw.length → productCoeff q i = productCoeff q' i := fun i hi => by
    rw [← hq, ← hq', List.getD_append _ _ _ _ hi, List.getD_append _ _ _ _ hi]
  obtain rfl : q = q' := List.ext_getElem (hlen.trans hlen'.symm) fun i hi hi' => by
    rw [← List.getD_eq_getElem q 0 hi, ← List.getD_eq_getElem q' 0 hi']
    exact getD_eq_of_productCoeff_eq hcoeff (hlen ▸ hi)
  have hbytes : ∀ i, (cw ++ [byteAt p 0, byteAt p 1]).getD i 0 = (cw ++ [byteAt p' 0, byteAt p' 1]).getD i 0 :=
    fun i => (hq i).trans (hq' i).symm
  refine entry_ext 0 fun j hj => show byteAt p j = byteAt p' j from ?_
  have hbyte := hbytes (cw.length + j)
  interval_cases j <;> simpa using hbyte

/-- A remainder is the one that the division gives (R134, R137). -/
theorem IsParityOf.eq_rsParity {p : Vector Byte 2} {cw : List Byte} (h : IsParityOf p cw) :
    p = rsParity fieldProduct cw :=
  h.unique (isParityOf_rsParity cw)

/-! ## The factors of messages made from others -/

theorem productCoeff_append_zeros (q : List Byte) (i : Nat) : productCoeff (q ++ [0, 0]) i = productCoeff q i := by
  simp only [productCoeff, getD_append_zeros]

/-- Behind its parity a message is a multiple already: the remainder is 0. -/
theorem IsParityOf.append {p : Vector Byte 2} {cw : List Byte} (h : IsParityOf p cw) :
    IsParityOf #v[0, 0] (cw ++ [byteAt p 0, byteAt p 1]) := by
  obtain ⟨q, hlen, hq⟩ := isParityOf_iff.mp h
  refine isParityOf_iff.mpr ⟨q ++ [0, 0], by simp [hlen], fun i => ?_⟩
  rw [productCoeff_append_zeros, ← hq]
  exact getD_append_zeros _ i

theorem productCoeff_cons_zero_succ (q : List Byte) (i : Nat) :
    productCoeff (0 :: q) (i + 1) = productCoeff q i := by
  rcases i with _ | _ | i <;> simp [productCoeff]

theorem IsParityOf.cons_zero {p : Vector Byte 2} {cw : List Byte} (h : IsParityOf p cw) : IsParityOf p (0 :: cw) := by
  obtain ⟨q, hlen, hq⟩ := isParityOf_iff.mp h
  refine isParityOf_iff.mpr ⟨0 :: q, congrArg (· + 1) hlen, fun i => ?_⟩
  cases i with
  | zero => simp [productCoeff]
  | succ i => rw [productCoeff_cons_zero_succ, ← hq, List.cons_append, List.getD_cons_succ]

theorem getD_zipWith_xor {xs ys : List Byte} (h : xs.length = ys.length) (i : Nat) :
    (List.zipWith (· ^^^ ·) xs ys).getD i 0 = xs.getD i 0 ^^^ ys.getD i 0 := by
  rcases Nat.lt_or_ge i xs.length with hi | hi <;> simp [hi, h ▸ hi]

theorem productCoeff_zipWith_xor {q q' : List Byte} (h : q.length = q'.length) (i : Nat) :
    productCoeff (List.zipWith (· ^^^ ·) q q') i = productCoeff q i ^^^ productCoeff q' i := by
  simp only [productCoeff, getD_zipWith_xor h, fieldProduct_xor_right, ite_xor_zero]
  ac_rfl

theorem byteAt_zipWith_xor (p p' : Vector Byte 2) {j : Nat} (hj : j < 2) :
    byteAt (Vector.zipWith (· ^^^ ·) p p') j = byteAt p j ^^^ byteAt p' j := by
  simp [byteAt, entry, hj]

/-- The product by the generator is additive, so a sum of messages has the sum of the parities. -/
theorem IsParityOf.xor {p p' : Vector Byte 2} {cw cw' : List Byte} (h : IsParityOf p cw) (h' : IsParityOf p' cw')
    (hlen : cw.length = cw'.length) :
    IsParityOf (Vector.zipWith (· ^^^ ·) p p') (List.zipWith (· ^^^ ·) cw cw') := by
  obtain ⟨q, hqlen, hq⟩ := isParityOf_iff.mp h
  obtain ⟨q', hqlen', hq'⟩ := isParityOf_iff.mp h'
  refine isParityOf_iff.mpr ⟨List.zipWith (· ^^^ ·) q q', by simp [hqlen, hqlen'], fun i => ?_⟩
  rw [productCoeff_zipWith_xor (by omega), ← hq, ← hq', ← getD_zipWith_xor (by simp [hlen]),
    List.zipWith_append hlen, byteAt_zipWith_xor _ _ (by decide), byteAt_zipWith_xor _ _ (by decide)]
  rfl

/-- One codeword is the factor of its own message. -/
theorem isParityOf_singleton (c : Byte) : IsParityOf #v[fieldProduct 0x03 c, fieldProduct 0x20 c] [c] := by
  refine isParityOf_iff.mpr ⟨[c], rfl, fun i => ?_⟩
  rcases i with _ | _ | _ | i <;> simp [productCoeff, byteAt, entry]

/-- Settles O34: each consequence is a remainder, and the remainder is the one that the division gives. -/
theorem parityIsTheRemainderAndIsLinear : Obligations.ParityIsTheRemainderAndIsLinear := by
  have hdiv := isParityOf_rsParity
  refine ⟨hdiv, fun cw p h => h.eq_rsParity, fun cw => (hdiv cw).append.eq_rsParity.symm,
    fun cw cw' hlen j hj => ?linear, fun cw => (hdiv cw).cons_zero.eq_rsParity.symm,
    fun c => (isParityOf_singleton c).eq_rsParity.symm⟩
  case linear => rw [← ((hdiv cw).xor (hdiv cw') hlen).eq_rsParity, byteAt_zipWith_xor _ _ hj]

end Sys2Proof.Machine
end

section
/-! PROOFS of the family 41_message_parity: how long the bit string is that the host encodes (R211 to R216); the encode
procedure needs no more of it. -/

namespace Sys2Proof.Machine

theorem digitValues_length {cs : List Char} {ds : List Nat} (h : digitValues cs = .ok ds) : ds.length = cs.length := by
  induction cs generalizing ds with
  | nil => cases h; rfl
  | cons c cs ih =>
    rw [digitValues] at h
    split at h
    · cases h
    · cases h
    · next hds => cases h; exact congrArg (· + 1) (ih hds)

theorem groupFields_length {gs : List (List Nat)} {bs : List Bool} (h : groupFields gs = .ok bs) :
    bs.length = (gs.map fun g => groupWidth g.length).sum := by
  induction gs generalizing bs with
  | nil => cases h; rfl
  | cons g gs ih =>
    rw [groupFields] at h
    split at h
    · split at h
      · next hbs => cases h; simp [fieldBits, ih hbs]
      · cases h
    · cases h

theorem groupBits_add_three (n : Nat) : groupBits (n + 3) = 10 + groupBits n := by
  rw [groupBits, groupBits, Nat.add_mod_right, Nat.add_div_right n (by decide)]
  omega

/-- The groups' widths are those that R213 counts. -/
theorem digitGroups_width (ds : List Nat) :
    ((digitGroups ds).map fun g => groupWidth g.length).sum = groupBits ds.length := by
  induction ds using digitGroups.induct with
  | case1 => rfl
  | case2 a => simp [digitGroups, groupWidth, groupBits]
  | case3 a b => simp [digitGroups, groupWidth, groupBits]
  | case4 a b c rest ih =>
    rw [digitGroups, List.map_cons, List.sum_cons, ih]
    exact (groupBits_add_three rest.length).symm

theorem padBits_length (bs : List Bool) : (padBits bs).length = paddedLength bs.length := by
  simp only [padBits, paddedLength, List.length_append, List.length_replicate]
  omega

/-- The digit count and the length of an encoded string (R211 to R215). -/
theorem hostBits_length {cs : List Char} {bs : List Bool} (h : hostBits cs = .ok bs) :
    1 ≤ cs.length ∧ cs.length ≤ 7 ∧ bs.length = paddedLength (3 + groupBits cs.length + 3) := by
  unfold hostBits at h
  split at h
  · cases h
  next hne =>
    split at h
    · cases h
    next ds hds =>
      split at h
      · cases h
      next hle =>
        split at h
        · cases h
        next gs hgs =>
          cases h
          have hlen := digitValues_length hds
          refine ⟨List.length_pos_iff.mpr hne, by omega, ?_⟩
          rw [padBits_length, List.length_append, List.length_append, groupFields_length hgs, digitGroups_width, hlen]
          simp [fieldBits]

/-- An encoded string has 20 to 32 bits, and 20 exactly for up to 4 digits (R216). -/
theorem hostBits_length_bounds {cs : List Char} {bs : List Bool} (h : hostBits cs = .ok bs) :
    20 ≤ bs.length ∧ bs.length ≤ 32 ∧ (20 < bs.length ↔ 5 ≤ cs.length) := by
  obtain ⟨hpos, hle, hlen⟩ := hostBits_length h
  have hcounts : ∀ n : Fin 8, 1 ≤ n.val → 20 ≤ paddedLength (3 + groupBits n + 3) ∧
      paddedLength (3 + groupBits n + 3) ≤ 32 ∧ (20 < paddedLength (3 + groupBits n + 3) ↔ 5 ≤ n.val) := by decide
  exact hlen ▸ hcounts ⟨cs.length, Nat.lt_succ_of_le hle⟩ hpos

end Sys2Proof.Machine
end

section
/-! PROOFS of the family 41_message_parity: what MBUILD leaves in the data cells (R169 to R172), and the cells in a row
word (R173), for the matrix that the encode procedure hands back. -/

namespace Sys2Proof.Machine

/-! ## The data cells (R169 to R172) -/

/-- A fold in which one element alone acts on a cell acts on it once. -/
theorem cell_foldl_of_once {α : Type} (f : Matrix → α → Matrix) (xs : List α) (m : Matrix) (r c : Nat) (g : Bool → Bool)
    {x : α} (hx : x ∈ xs) (hnd : xs.Nodup) (hact : ∀ m, cell (f m x) r c = g (cell m r c))
    (hother : ∀ m, ∀ y ∈ xs, y ≠ x → cell (f m y) r c = cell m r c) :
    cell (xs.foldl f m) r c = g (cell m r c) := by
  obtain ⟨as, bs, rfl⟩ := List.append_of_mem hx
  obtain ⟨hnot, -⟩ := List.nodup_cons.mp (List.nodup_middle.mp hnd)
  rw [List.mem_append, not_or] at hnot
  rw [List.foldl_append, List.foldl_cons,
    cell_foldl_of_unchanged f bs _ r c fun m y hy =>
      hother m y (List.mem_append_right _ (List.mem_cons_of_mem x hy)) fun he => hnot.2 (he ▸ hy),
    hact, cell_foldl_of_unchanged f as m r c fun m y hy =>
      hother m y (List.mem_append_left _ hy) fun he => hnot.1 (he ▸ hy)]

/-- The mask toggles the data cells at even row + column (R172). -/
theorem cell_applyMask_data (m : Matrix) {r c : Nat} (hr : r ≤ 10) (hc : c ≤ 10) (h : isData r c = true) :
    cell (applyMask m) r c = (cell m r c ^^ decide ((r + c) % 2 = 0)) := by
  refine cell_foldl_of_once _ (square 11) m r c (fun b => b ^^ decide ((r + c) % 2 = 0)) (x := (r, c))
    (mem_square.mpr ⟨by omega, by omega⟩) square_nodup (fun m => ?toggled) fun m y _ hne => ?other
  case toggled =>
    by_cases hmask : (r + c) % 2 = 0
    · simp [h, hmask, cell_setCell_same m r c _ hr hc]
    · simp [h, hmask]
  case other =>
    split
    · exact cell_setCell_other m y.1 y.2 r c _ hne
    · rfl

/-- Phase 4 puts each placement bit in its cell of the order, up to the shorter length (R171). -/
theorem cell_placeBits_order (bs : List Bool) (m : Matrix) {k : Nat} (hk : k < order.length) (hb : k < bs.length) :
    cell (placeBits bs m) order[k].1 order[k].2 = bs[k] := by
  have hnd : ((order.zip bs).map Prod.fst).Nodup := by
    rw [List.zip_eq_zip_take_min, List.map_fst_zip (by simp)]
    exact order_nodup.sublist (List.take_sublist _ _)
  have hmem : (order[k], bs[k]) ∈ order.zip bs :=
    List.mem_iff_getElem.mpr ⟨k, by simp [hk, hb], by simp⟩
  obtain ⟨-, hr, hc⟩ := order_isData order[k] (List.getElem_mem hk)
  exact cell_foldl_setCell_mem Prod.fst Prod.snd (order.zip bs) m _ hmem hnd hr hc

theorem byteBits_getD (b : Byte) {t : Nat} (ht : t < 8) : (byteBits b).getD t false = b.getLsbD (7 - t) := by
  simp [byteBits, ht]

/-- Bit `k` of the placement sequence: the message, then PAR[0], then PAR[1] (R169). -/
theorem placementBits_getD (s : State) {k : Nat} (hk : k < s.msglen + 16) :
    (placementBits s).getD k false =
      if k < s.msglen then bitAt s.msg k
      else if k < s.msglen + 8 then (byteAt s.par 0).getLsbD (7 - (k - s.msglen))
      else (byteAt s.par 1).getLsbD (7 - (k - s.msglen - 8)) := by
  have hmsg : ((List.range s.msglen).map (bitAt s.msg)).length = s.msglen := by simp
  have hpar := byteBits_length (byteAt s.par 0)
  rw [placementBits, List.append_assoc]
  split_ifs with h1 h2
  · rw [List.getD_append _ _ _ _ (hmsg.symm ▸ h1)]
    simp [h1]
  · rw [List.getD_append_right _ _ _ _ (by omega), hmsg, List.getD_append _ _ _ _ (by omega),
      byteBits_getD _ (by omega)]
  · rw [List.getD_append_right _ _ _ _ (by omega), hmsg, List.getD_append_right _ _ _ _ (by omega), hpar,
      byteBits_getD _ (by omega)]

/-- MBUILD leaves in each cell of the order its placement bit, toggled at even row + column (R171, R172, R174). -/
theorem cell_builtMatrix_order (s : State) {k : Nat} (hk : k < min (s.msglen + 16) 36) :
    cell (builtMatrix s) (order.getD k (0, 0)).1 (order.getD k (0, 0)).2 =
      ((placementBits s).getD k false ^^ decide (((order.getD k (0, 0)).1 + (order.getD k (0, 0)).2) % 2 = 0)) := by
  have hko : k < order.length := order_length ▸ (lt_min_iff.mp hk).2
  have hkb : k < (placementBits s).length := placementBits_length s ▸ (lt_min_iff.mp hk).1
  obtain ⟨hd, hr, hc⟩ := order_isData order[k] (List.getElem_mem hko)
  rw [List.getD_eq_getElem _ _ hko, List.getD_eq_getElem _ _ hkb, builtMatrix, cell_applyMask_data _ hr hc hd,
    cell_placeBits_order _ _ hko hkb]

/-! ## The row words (R173) -/

/-- A sum of bits at their places has each bit at its place. -/
theorem testBit_sum_bits (f : Nat → Bool) (n c : Nat) :
    ((List.range n).map fun c => (f c).toNat <<< c).sum.testBit c = (decide (c < n) && f c) := by
  induction n with
  | zero => simp
  | succ n ih =>
    rw [List.range_succ, List.map_append, List.sum_append, List.map_singleton, List.sum_singleton, Nat.shiftLeft_eq,
      Nat.add_comm, Nat.mul_comm, Nat.testBit_two_pow_mul_add _ (sum_bits_lt f n), ih, Nat.testBit_bool_toNat]
    split
    · next h => simp [h, Nat.lt_succ_of_lt h]
    · next h =>
      obtain ⟨d, rfl⟩ := Nat.exists_eq_add_of_le (Nat.le_of_not_lt h)
      rcases d with _ | d <;> simp

/-- Bit `c` of a row word is the cell of column `c` (R173). -/
theorem rowWord_getLsbD (m : Matrix) (r : Nat) {c : Nat} (hc : c ≤ 10) : (rowWord m r).getLsbD c = cell m r c := by
  rw [rowWord, BitVec.getLsbD_ofNat, testBit_sum_bits]
  simp [show c < 32 by omega, show c < 11 by omega]

end Sys2Proof.Machine
end

section
/-! PROOFS of the family 41_message_parity: the host's encode procedure (R219). Each of its commands completes on the
state that the one before left, but for MBUILD in strict mode (R174); the matrix that is read back is then known cell by
cell. -/

namespace Sys2Proof.Machine

/-! ## A command that the host issues (R219, R220) -/

theorem issue_encode {i : Instr} (hi : i.wellFormed = true) (s : State) : issue (encode i) s = exec i s :=
  issue_ok (decodeAfterEncodeGivesTheCommand i hi) s

theorem hostIssue_of_complete {i : Instr} {s t : State} (hi : i.wellFormed = true) (h : exec i s = complete t) :
    hostIssue i s = .ok t.succeed := by
  rw [hostIssue, issue_encode hi, h]
  simp [complete, readStatus, statusWord_lasterr, ErrCode.bits]

theorem ErrCode.bits_ne_zero {e : ErrCode} (h : e ≠ .ok) : e.bits ≠ 0 := by
  cases e with
  | ok => exact absurd rfl h
  | _ => decide

theorem hostIssue_of_fails {i : Instr} {s : State} {e : ErrCode} (hi : i.wellFormed = true) (h : Fails s i e) :
    hostIssue i s = .error (.commandFailed e.bits) := by
  rw [hostIssue, issue_encode hi, exec_of_fails h]
  simp only [raise, readStatus, statusWord_lasterr, State.fail_lasterr, if_neg (ErrCode.bits_ne_zero h.ne_ok)]

theorem hostIssueAll_cons_complete {i : Instr} {s t : State} (hi : i.wellFormed = true) (h : exec i s = complete t)
    (is : List Instr) : hostIssueAll (i :: is) s = hostIssueAll is t.succeed := by
  rw [hostIssueAll, hostIssue_of_complete hi h]

/-! ## The commands before MBUILD -/

/-- The state in which a bit string is the message that commands on `s` have loaded (R132, R133). -/
def State.withMessage (s : State) (bs : List Bool) : State :=
  (s.setMsg (appendBits s.msg 0 bs) bs.length).succeed

theorem bitAt_withMessage (s : State) {bs : List Bool} (h : bs.length ≤ 32) {k : Nat} (hk : k < bs.length) :
    bitAt (s.withMessage bs).msg k = bs.getD k false := by
  rw [State.withMessage, State.succeed_msg, State.setMsg_msg, bitAt_appendBits _ _ _ (by omega), if_pos (by omega),
    Nat.sub_zero]

theorem Inv.withMessage {s : State} (hs : Inv s) {bs : List Bool} (h : bs.length ≤ 32) : Inv (s.withMessage bs) where
  tables := hs.tables
  msglen := h
  parity := nofun
  matrix := hs.matrix.congr rfl rfl rfl rfl
  sticky hne := absurd rfl hne
  formatMap := hs.formatMap
  pos := hs.pos

/-- MSGPUT of a chunk puts it behind the bits that are loaded. -/
theorem exec_putChunk_withMessage (s : State) {as bs : List Bool} (hpos : 0 < bs.length) (hlen : bs.length ≤ 16)
    (hfit : as.length + bs.length ≤ 32) :
    ∃ u, exec (putChunk bs) (s.withMessage as) = complete u ∧ u.succeed = s.withMessage (as ++ bs) := by
  refine ⟨_, exec_putChunk hpos hlen hfit, ?_⟩
  rw [State.withMessage, State.setMsg_succeed_setMsg, State.withMessage, appendBits_append, Nat.zero_add,
    List.length_append]
  rfl

theorem hostIssueAll_putChunks (s : State) (k : Nat) (as bs : List Bool) (is : List Instr) (hk : bs.length ≤ k)
    (hfit : as.length + bs.length ≤ 32) :
    hostIssueAll ((chunks16 k bs).map putChunk ++ is) (s.withMessage as) =
      hostIssueAll is (s.withMessage (as ++ bs)) := by
  induction k generalizing as bs with
  | zero =>
    obtain rfl := List.eq_nil_of_length_eq_zero (Nat.le_zero.mp hk)
    rw [List.append_nil]
    rfl
  | succ k ih =>
    by_cases hbs : bs = []
    · subst hbs
      rw [List.append_nil]
      rfl
    · have hpos := List.length_pos_iff.mpr hbs
      have htake : (bs.take 16).length = min 16 bs.length := List.length_take
      have hdrop : (bs.drop 16).length = bs.length - 16 := List.length_drop
      obtain ⟨u, hput, hu⟩ :=
        exec_putChunk_withMessage s (as := as) (bs := bs.take 16) (by omega) (by omega) (by omega)
      rw [chunks16, if_neg hbs, List.map_cons, List.cons_append, hostIssueAll_cons_complete rfl hput, hu,
        ih _ _ (by omega) (by rw [List.length_append]; omega), List.append_assoc, List.take_append_drop]

/-- The commands of MSGLOAD complete one after another (R82). -/
theorem hostIssueAll_msgload (s : State) {bs : List Bool} (h : bs.length ≤ 32) (is : List Instr) :
    hostIssueAll (msgload bs ++ is) s = hostIssueAll is (s.withMessage bs) := by
  rw [msgload, List.cons_append, hostIssueAll_cons_complete rfl (exec_of_completes .msgclr)]
  exact hostIssueAll_putChunks s _ [] bs is le_rfl (by simpa using h)

/-- TINIT leaves valid tables, whether it builds them or finds them (R104). -/
theorem exists_completes_tinit (s : State) :
    ∃ u, Completes s .tinit u ∧ u.tblValid = true ∧ u.strict = s.strict := by
  cases ht : s.tblValid with
  | false => exact ⟨_, .tinit ht, rfl, rfl⟩
  | true => exact ⟨_, .tinit_again ht, ht, rfl⟩

/-- What the commands before MBUILD leave: the string as the message, with its parity, and STRICT as it was. -/
structure MessageReady (bs : List Bool) (strict : Bool) (u : State) : Prop where
  inv : Inv u
  parValid : u.parValid = true
  strict : u.strict = strict
  msglen : u.msglen = bs.length
  msg : ∀ k, k < bs.length → bitAt u.msg k = bs.getD k false

/-- TINIT, MSGLOAD and RSGEN complete, and MBUILD is left to run (R219). -/
theorem hostIssueAll_encodeCommands {bs : List Bool} {s : State} (hs : Inv s) (hpos : bs.length ≠ 0)
    (h : bs.length ≤ 32) :
    ∃ u, MessageReady bs s.strict u ∧ hostIssueAll (encodeCommands bs) s = hostIssueAll [.mbuild] u := by
  obtain ⟨v, hv, hvt, hvs⟩ := exists_completes_tinit s
  have hrs : Completes (v.succeed.withMessage bs) .rsgen _ := .rsgen hvt hpos
  refine ⟨_, ⟨hrs.inv ((hv.inv hs).withMessage h), rfl, hvs, rfl, fun k hk => bitAt_withMessage _ h hk⟩, ?_⟩
  rw [encodeCommands, List.cons_append, hostIssueAll_cons_complete rfl (exec_of_completes hv), hostIssueAll_msgload _ h,
    hostIssueAll_cons_complete rfl (exec_of_completes hrs)]

/-! ## Reading the matrix back (R82b, R173) -/

theorem State.succeed_of_ok {s : State} (h : s.lasterr = .ok) : s.succeed = s := by
  rw [State.succeed, ← h]

theorem State.setResult_setResult (s : State) (v w : Word) : (s.setResult v).setResult w = s.setResult w := rfl

theorem hostIssue_mrdrow {r : Nat} (hr : r ≤ 10) {s : State} (hp : s.phase = .done) (hok : s.lasterr = .ok) :
    hostIssue (.mrdrow (BitVec.ofNat 8 r)) s = .ok (s.setResult (rowWord s.matrix r)) := by
  have hval : (BitVec.ofNat 8 r).toNat = r := Nat.mod_eq_of_lt (by omega)
  have hread : Completes s (.mrdrow (BitVec.ofNat 8 r)) _ := .mrdrow _ (by omega) hp
  rw [hostIssue_of_complete rfl (exec_of_completes hread), hval, State.succeed_of_ok (by simpa using hok)]

/-- MRDROWs of a finished matrix read its rows and change RESULT only. -/
theorem hostReadAll_mrdrows {rs : List Nat} (hrs : ∀ r ∈ rs, r ≤ 10) {s : State} (hp : s.phase = .done)
    (hok : s.lasterr = .ok) :
    ∃ v, hostReadAll (rs.map fun r => .mrdrow (BitVec.ofNat 8 r)) s =
      .ok (rs.map (rowWord s.matrix), s.setResult v) := by
  induction rs generalizing s with
  | nil => exact ⟨s.result, rfl⟩
  | cons r rs ih =>
    obtain ⟨v, hv⟩ := ih (fun x hx => hrs x (List.mem_cons_of_mem r hx)) (s := s.setResult (rowWord s.matrix r))
      (by simpa using hp) (by simpa using hok)
    refine ⟨v, ?_⟩
    rw [List.map_cons, hostReadAll, hostIssue_mrdrow (hrs r List.mem_cons_self) hp hok]
    simp only [hv, readResult, State.setResult_result, State.setResult_matrix, State.setResult_setResult, List.map_cons]

/-! ## The procedure -/

/-- With the message ready, the placement sequence starts with its bits (R169). -/
theorem MessageReady.placementBits_getD {bs : List Bool} {strict : Bool} {u : State} (h : MessageReady bs strict u)
    {k : Nat} (hk : k < bs.length + 16) :
    (placementBits u).getD k false =
      if k < bs.length then bs.getD k false
      else if k < bs.length + 8 then (byteAt u.par 0).getLsbD (7 - (k - bs.length))
      else (byteAt u.par 1).getLsbD (7 - (k - bs.length - 8)) := by
  rw [Machine.placementBits_getD u (h.msglen.symm ▸ hk), h.msglen]
  exact ite_congr rfl (h.msg k) fun _ => rfl

/-- Where MBUILD completes, the rows of the matrix that it builds are read back (R219). -/
theorem hostEncode_of_fits {cs : List Char} {bs : List Bool} {s u : State} (hbs : hostBits cs = .ok bs)
    (hrun : hostIssueAll (encodeCommands bs) s = hostIssueAll [.mbuild] u) (hp : u.parValid = true)
    (hc : ¬ (u.strict = true ∧ 36 < u.msglen + 16)) :
    ∃ v, hostEncode cs s = .ok ((List.range 11).map (rowWord (builtMatrix u)),
      (u.setPlacement (builtMatrix u) .done).succeed.setResult v) := by
  obtain ⟨v, hread⟩ := hostReadAll_mrdrows (rs := List.range 11) (fun r hr => Nat.le_of_lt_succ (List.mem_range.mp hr))
    (s := (u.setPlacement (builtMatrix u) .done).succeed) rfl rfl
  refine ⟨v, ?_⟩
  rw [hostIssueAll_cons_complete rfl (exec_of_completes (.mbuild hp hc)), hostIssueAll] at hrun
  simp only [hostEncode, hbs, hrun]
  exact hread

/-- In strict mode MBUILD refuses a message that does not fit (R170, R174). -/
theorem hostEncode_of_capacity {cs : List Char} {bs : List Bool} {s u : State} (hbs : hostBits cs = .ok bs)
    (hrun : hostIssueAll (encodeCommands bs) s = hostIssueAll [.mbuild] u) (hp : u.parValid = true)
    (hc : u.strict = true ∧ 36 < u.msglen + 16) : hostEncode cs s = .error (.commandFailed 10) := by
  simp only [hostEncode, hbs, hrun, hostIssueAll, hostIssue_of_fails rfl (Fails.mbuild_capacity hp hc)]
  rfl

/-- Settles O59: the commands before MBUILD complete; MBUILD completes unless strict mode refuses the message, and the
matrix that it builds is known cell by cell. -/
theorem encodeProcedureBuildsTheSymbol : Obligations.EncodeProcedureBuildsTheSymbol := by
  intro cs bs s hbs hs
  obtain ⟨h20, h32, hdigits⟩ := hostBits_length_bounds hbs
  obtain ⟨u, hu, hrun⟩ := hostIssueAll_encodeCommands hs (by omega) h32
  have hmsglen := hu.msglen
  have hstrict := hu.strict
  refine ⟨fun hfits => ?built, fun hst h5 => ?refused⟩
  case refused => exact hostEncode_of_capacity hbs hrun hu.parValid ⟨hstrict.trans hst, by omega⟩
  case built =>
    have hc : ¬ (u.strict = true ∧ 36 < u.msglen + 16) := by
      rintro ⟨hst, hlong⟩
      rcases hfits with hns | h4
      · simp [← hstrict, hst] at hns
      · omega
    obtain ⟨v, hencode⟩ := hostEncode_of_fits hbs hrun hu.parValid hc
    refine ⟨_, _, hencode, by simp, by simp, ?trunc, ?par, ?msg, fun r c hr hc => ?row, fun k hk => ?cell⟩
    case trunc =>
      rw [State.setResult_trunc, State.succeed_trunc, State.setPlacement_trunc, decide_eq_decide, droppedCount_pos_iff,
        hmsglen]
      omega
    case par => simpa [hmsglen] using (hu.inv.parity hu.parValid).2.2
    case msg => simpa using hu.msg
    case row =>
      have hget : ((List.range 11).map (rowWord (builtMatrix u))).getD r 0 = rowWord (builtMatrix u) r := by
        simp [show r < 11 by omega]
      rw [hget, rowWord_getLsbD _ _ hc, State.setResult_matrix, State.succeed_matrix, State.setPlacement_matrix]
    case cell =>
      rw [State.setResult_par, State.succeed_par, State.setPlacement_par, ← hu.placementBits_getD (lt_min_iff.mp hk).1]
      exact cell_builtMatrix_order u (hmsglen.symm ▸ hk)

end Sys2Proof.Machine
end

section
/-! PROOFS of the family 42_matrix_constructor: the data-region predicate and the placement order (R161, R162, R168). -/

namespace Sys2Proof.Machine

/-- A cell is reserved exactly under the four conditions of R161. -/
theorem isData_eq_false_iff {r c : Nat} : isData r c = false ↔
    (r ≤ 6 ∧ c ≤ 6) ∨ ((r = 7 ∧ c ≤ 7) ∨ (c = 7 ∧ r ≤ 7)) ∨ (r = 0 ∨ c = 0) ∨
      ((r = 8 ∧ 1 ≤ c ∧ c ≤ 8) ∨ (c = 8 ∧ 1 ≤ r ∧ r ≤ 7)) := by
  rw [isData]
  split_ifs with hfinder hseparator htiming hformat
  · exact iff_of_true rfl (.inl hfinder)
  · exact iff_of_true rfl (.inr (.inl hseparator))
  · exact iff_of_true rfl (.inr (.inr (.inl htiming)))
  · exact iff_of_true rfl (.inr (.inr (.inr hformat)))
  · exact iff_of_false (by decide) (by simp only [hfinder, hseparator, htiming, hformat, or_false, not_false_eq_true])

/-- The data cells as R161 lists them. -/
theorem isData_eq_decide {r c : Nat} (hr : r ≤ 10) (hc : c ≤ 10) :
    isData r c = decide ((1 ≤ r ∧ r ≤ 8 ∧ 9 ≤ c) ∨ (9 ≤ r ∧ 1 ≤ c)) := by
  rw [Bool.eq_iff_iff, decide_eq_true_eq, ← Bool.not_eq_false, isData_eq_false_iff]
  omega

/-- Settles O36: the predicate's branches, their complement inside the square, and the counts by evaluation. -/
theorem thirtySixDataCells : Obligations.ThirtySixDataCells :=
  ⟨fun _ _ _ _ => isData_eq_false_iff, fun _ _ => isData_eq_decide, by decide, by decide, by decide, by decide,
    by decide⟩

/-- Settles O37: the two coordinate checks are the only ones. -/
theorem classReturnsThePredicate : Obligations.ClassReturnsThePredicate :=
  ⟨spelledB16 (by decide) fun _ _ => ⟨rfl, rfl⟩,
    fun a b _ => ⟨fun h => (Fails.classify_range a b h).raises, fun ha hb => (Completes.classify a b ha hb).exec_eq⟩⟩

/-- Settles O38, by evaluation of the scan. -/
theorem placementOrderIsTheListedOne : Obligations.PlacementOrderIsTheListedOne := by
  unfold Obligations.PlacementOrderIsTheListedOne
  decide

end Sys2Proof.Machine
end

section
/-! PROOFS of the family 42_matrix_constructor: the phase commands one by one and the reading of a row (R163 to R173).
Each command's checks and effect are those of `Fails` and `Completes`; a cell after it is read off its phase's fold. -/

namespace Sys2Proof.Machine

/-- A phase command that completes writes M, PHASE and LASTERR. -/
theorem Completes.exec_setMatrix {s : State} {i : Instr} {m : Matrix} {p : Phase}
    (h : Completes s i (s.setMatrix m p)) :
    exec i s = .next { s with matrix := m, phase := p, lasterr := .ok } := h.exec_eq

/-- Settles O39: MCLR has no check. -/
theorem mclrClearsTheMatrix : Obligations.MclrClearsTheMatrix :=
  ⟨spelledN (by decide) rfl rfl, fun _ => ⟨_, Completes.mclr.exec_setMatrix, rfl, fun r c _ _ => cell_cleared r c⟩⟩

/-! ## The finder and the timing pattern (R164, R165) -/

/-- The border ring and the inner square, in the form of R164. -/
theorem finderPart_eq_true_iff {r c : Nat} : finderPart r c = true ↔
    r ≤ 6 ∧ c ≤ 6 ∧ (r = 0 ∨ r = 6 ∨ c = 0 ∨ c = 6 ∨ (2 ≤ r ∧ r ≤ 4 ∧ 2 ≤ c ∧ c ≤ 4)) := by
  simp only [finderPart, Bool.and_eq_true, Bool.or_eq_true, decide_eq_true_eq]
  omega

theorem finderPart_of_lt {r c : Nat} (h : 6 < r ∨ 6 < c) : finderPart r c = false := by
  rw [Bool.eq_false_iff, ne_eq, finderPart_eq_true_iff]
  omega

/-- Settles O40: the phase darkens the finder's dark cells and no other. -/
theorem mfindDrawsTheFinder : Obligations.MfindDrawsTheFinder := by
  refine ⟨spelledN (by decide) rfl rfl, fun s h => (Fails.mfind_seq h).raises,
    fun s h => ⟨_, (Completes.mfind h).exec_setMatrix, rfl, fun r c _ _ => (cell_drawFinder s.matrix r c).trans ?_⟩⟩
  simp only [← finderPart_eq_true_iff]
  cases finderPart r c <;> rfl

/-- Row 0 and column 0 alternate from index 7 on, dark at even indices (R165). -/
theorem timingPart_zero {i : Nat} (h7 : 7 ≤ i) (h10 : i ≤ 10) :
    timingPart 0 i = decide (i % 2 = 0) ∧ timingPart i 0 = decide (i % 2 = 0) := by
  interval_cases i <;> decide

/-- Settles O41: the eight timing cells are written by their index, and no other cell is. -/
theorem mtimeDrawsTheTimingPattern : Obligations.MtimeDrawsTheTimingPattern := by
  refine ⟨spelledN (by decide) rfl rfl, fun s h => (Fails.mtime_seq h).raises, fun s h =>
    ⟨_, (Completes.mtime h).exec_setMatrix, rfl, fun i h7 h10 => ⟨?row, ?column⟩, fun r c hr hc hrow hcol => ?other⟩⟩
  case row =>
    exact (cell_drawTiming _ 0 i (by omega) h10).trans ((if_pos (by omega)).trans (timingPart_zero h7 h10).1)
  case column =>
    exact (cell_drawTiming _ i 0 h10 (by omega)).trans ((if_pos (by omega)).trans (timingPart_zero h7 h10).2)
  case other => exact (cell_drawTiming _ r c hr hc).trans (if_neg (not_or.mpr ⟨hrow, hcol⟩))

/-! ## The format information (R167) -/

/-- Settles O42: each position's cell holds its bit, because the map's cells are different. -/
theorem mfmtCopiesTheFormatWord : Obligations.MfmtCopiesTheFormatWord :=
  ⟨spelledN (by decide) rfl rfl, fun _ h => (Fails.mfmt_seq h).raises,
    fun s h hmap => ⟨_, (Completes.mfmt h).exec_setMatrix, rfl,
      fun _ hk => cell_drawFormat_entry s.formatWord hmap s.matrix hk,
      fun _ _ _ _ hm => cell_drawFormat_other s.formatWord s.formatMap s.matrix hm⟩⟩

/-! ## Placement (R169 to R171) -/

/-- Placement writes no cell past the bits it has (R171). -/
theorem cell_placeBits_other (bs : List Bool) (m : Matrix) {r c : Nat} (h : (r, c) ∉ order.take (min bs.length 36)) :
    cell (placeBits bs m) r c = cell m r c := by
  refine cell_foldl_setCell_other Prod.fst Prod.snd (order.zip bs) m r c fun x hx he => h ?_
  rw [List.zip_eq_zip_take_min, order_length, Nat.min_comm] at hx
  exact he ▸ (List.of_mem_zip hx).1

/-- Phase 4 puts each placement bit in its cell of the order (R171). -/
theorem cell_placeBits_getD (s : State) (m : Matrix) {k : Nat} (hk : k < min (s.msglen + 16) 36) :
    cell (placeBits (placementBits s) m) (order.getD k (0, 0)).1 (order.getD k (0, 0)).2 =
      (placementBits s).getD k false := by
  have hko : k < order.length := order_length ▸ (lt_min_iff.mp hk).2
  have hkb : k < (placementBits s).length := placementBits_length s ▸ (lt_min_iff.mp hk).1
  rw [List.getD_eq_getElem _ _ hko, List.getD_eq_getElem _ _ hkb, cell_placeBits_order _ _ hko hkb]

/-- A placement that completes writes M, PHASE, TRUNC, RESULT and LASTERR (R170, R171). -/
theorem Completes.exec_setPlacement {s : State} {i : Instr} {m : Matrix} {p : Phase}
    (h : Completes s i (s.setPlacement m p)) :
    exec i s = .next { s with
      matrix := m, phase := p, trunc := decide (s.msglen + 16 > 36), result := placementReport s, lasterr := .ok } := by
  simp only [h.exec_eq, State.setPlacement, droppedCount_pos_iff]
  rfl

/-- The report is `{dropped, placed}`; MSGLEN at most 32 keeps both counts inside their fields (R171). -/
theorem placementReport_toNat {s : State} (h : s.msglen ≤ 32) :
    (placementReport s).toNat = 65536 * (s.msglen + 16 - min (s.msglen + 16) 36) + min (s.msglen + 16) 36 := by
  have htotal : placementTotal s = s.msglen + 16 := rfl
  have hplaced : placedCount s = min (s.msglen + 16) 36 := rfl
  rw [placementReport, BitVec.toNat_append, ← Nat.shiftLeft_add_eq_or_of_lt (BitVec.isLt _), Nat.shiftLeft_eq,
    BitVec.toNat_ofNat, BitVec.toNat_ofNat, droppedCount, htotal, hplaced]
  omega

/-- Settles O43: the three checks in their order; then the placement bits in the first cells of the order. -/
theorem mplacePlacesThePlacementSequence : Obligations.MplacePlacesThePlacementSequence := by
  refine ⟨spelledN (by decide) rfl rfl, fun s => ⟨fun h => (Fails.mplace_seq h).raises,
    fun h hp => (Fails.mplace_nopar h hp).raises, fun h hp hs hc => (Fails.mplace_capacity h hp ⟨hs, hc⟩).raises,
    fun h hp hc hlen => ⟨_, (Completes.mplace h hp hc).exec_setPlacement, rfl, placementReport_toNat hlen,
      fun k hk => ?placed, fun r c _ _ hm => ?other⟩⟩⟩
  case placed => exact (cell_placeBits_getD s s.matrix hk).trans (placementBits_getD s (lt_min_iff.mp hk).1)
  case other => exact cell_placeBits_other _ _ ((placementBits_length s).symm ▸ hm)

/-! ## The mask (R172) -/

/-- Settles O44: the data cells at even row + column toggle, the reserved cells and the other data cells stay. -/
theorem mmaskTogglesTheEvenDataCells : Obligations.MmaskTogglesTheEvenDataCells := by
  refine ⟨spelledN (by decide) rfl rfl, fun s h => (Fails.mmask_seq h).raises,
    fun s h => ⟨_, (Completes.mmask h).exec_setMatrix, rfl, fun r c hr hc => ?cell⟩, by decide⟩
  cases hd : isData r c with
  | false => rw [Bool.false_and, Bool.xor_false]; exact cell_applyMask_reserved s.matrix hd
  | true => rw [Bool.true_and]; exact cell_applyMask_data s.matrix hr hc hd

/-! ## Reading a row (R173) -/

theorem rowWord_getLsbD_of_le (m : Matrix) (r : Nat) {c : Nat} (hc : 11 ≤ c) : (rowWord m r).getLsbD c = false := by
  rw [rowWord, BitVec.getLsbD_ofNat, testBit_sum_bits]
  simp [Nat.not_lt.mpr hc]

/-- A read that completes writes RESULT and LASTERR. -/
theorem Completes.exec_setResult {s : State} {i : Instr} {v : Word} (h : Completes s i (s.setResult v)) :
    exec i s = .next { s with result := v, lasterr := .ok } := h.exec_eq

/-- Settles O45: E_RANGE comes first; RESULT is the row word. -/
theorem mrdrowReadsOneRow : Obligations.MrdrowReadsOneRow :=
  ⟨spelledB8 (by decide) fun _ => ⟨rfl, rfl⟩,
    fun b s => ⟨fun hb => (Fails.mrdrow_range b hb).raises, fun hb h => (Fails.mrdrow_notready b hb h).raises,
      fun hb h => ⟨_, (Completes.mrdrow b hb h).exec_setResult, rfl, fun _ hc => rowWord_getLsbD s.matrix _ hc,
        fun _ hc => rowWord_getLsbD_of_le s.matrix _ hc⟩⟩⟩

end Sys2Proof.Machine
end

section
/-! PROOFS of the family 42_matrix_constructor: MBUILD is the six phase commands one by one (R174), and the patterns of
the finished matrix (R175, R176), which the invariant's clause about M holds. -/

namespace Sys2Proof.Machine

/-! ## The commands one after another (R174) -/

/-- M after phases 1 to 3 from the cleared matrix (R176). -/
def templateMatrix (w : BitVec 15) (map : Vector (Nat × Nat) 15) : Matrix :=
  drawFormat w map (drawTiming (drawFinder clearedMatrix))

theorem State.setMatrix_succeed (s : State) (m : Matrix) (p : Phase) :
    s.succeed.setMatrix m p = (s.setMatrix m p).succeed := rfl

theorem State.succeed_succeed (s : State) : s.succeed.succeed = s.succeed := rfl

/-- MCLR and phases 1 to 3 complete on every state and draw the template. -/
theorem execAll_template (is : List Instr) (s : State) :
    execAll (.mclr :: .mfind :: .mtime :: .mfmt :: is) s =
      execAll is (s.setMatrix (templateMatrix s.formatWord s.formatMap) .format).succeed := by
  rw [execAll_cons_complete (exec_of_completes .mclr), execAll_cons_complete (exec_of_completes (.mfind rfl)),
    execAll_cons_complete (exec_of_completes (.mtime rfl)), execAll_cons_complete (exec_of_completes (.mfmt rfl))]
  simp only [State.setMatrix_succeed, State.succeed_succeed, State.setMatrix_setMatrix, State.succeed_matrix,
    State.setMatrix_matrix, State.succeed_formatWord, State.setMatrix_formatWord, State.succeed_formatMap,
    State.setMatrix_formatMap, templateMatrix]

/-- MPLACE right after phase 3. -/
theorem exec_mplace_of_format {s : State} (m : Matrix) (hp : s.parValid = true)
    (hc : ¬ (s.strict = true ∧ 36 < s.msglen + 16)) :
    exec .mplace (s.setMatrix m .format).succeed =
      complete (s.setPlacement (placeBits (placementBits s) m) .placed).succeed :=
  exec_of_completes (.mplace rfl hp hc)

/-- MMASK right after a placement. -/
theorem exec_mmask_of_placed (s : State) (m : Matrix) :
    exec .mmask (s.setPlacement m .placed).succeed = complete (s.setPlacement (applyMask m) .done).succeed := by
  rw [exec_of_completes (.mmask rfl), State.setMatrix_succeed, State.setMatrix_setPlacement, State.succeed_matrix,
    State.setPlacement_matrix]

/-- Where MBUILD's checks pass, the six commands complete one after another, with MBUILD's effect. -/
theorem execAll_phases {s : State} (hp : s.parValid = true) (hc : ¬ (s.strict = true ∧ 36 < s.msglen + 16)) :
    execAll [.mclr, .mfind, .mtime, .mfmt, .mplace, .mmask] s = exec .mbuild s := by
  rw [execAll_template, execAll_cons_complete (exec_mplace_of_format _ hp hc), State.succeed_succeed,
    execAll_cons_complete (exec_mmask_of_placed s _), State.succeed_succeed, execAll,
    exec_of_completes (.mbuild hp hc), complete, builtMatrix, templateMatrix]

/-- Settles O46: the checks in their order, then the six commands together. -/
theorem mbuildRunsThePhasesInOrder : Obligations.MbuildRunsThePhasesInOrder := by
  refine ⟨spelledN (by decide) rfl rfl, fun s => ⟨fun hp => (Fails.mbuild_nopar hp).raises,
    fun hp hs hc => (Fails.mbuild_capacity hp ⟨hs, hc⟩).raises, fun hp hc => ?completes⟩⟩
  have hbuild := (Completes.mbuild hp hc).exec_setPlacement
  exact ⟨_, hbuild, (execAll_phases hp hc).trans hbuild, rfl⟩

/-- Settles O48, by evaluation: the phases start from the cleared matrix, so the rows are closed. -/
theorem defaultTemplateHasTheListedRows : Obligations.DefaultTemplateHasTheListedRows := by
  intro s hw hmap
  refine ⟨_, execAll_template [] s, ?_⟩
  rw [State.succeed_matrix, State.setMatrix_matrix, hw, hmap]
  decide +kernel

/-! ## The fixed patterns (R175) -/

theorem templateCell_of_not_format (w : BitVec 15) {map : Vector (Nat × Nat) 15} (hmap : FormatMapOk map) {r c : Nat}
    (h : isFormatCell r c = false) : templateCell w map r c = (finderPart r c || timingPart r c) := by
  have hm : (r, c) ∉ map.toList := fun hm => by simp [hmap.isFormatCell hm] at h
  rw [templateCell, formatPart_other w hm, Bool.or_false]

theorem templateCell_timing (w : BitVec 15) {map : Vector (Nat × Nat) 15} (hmap : FormatMapOk map) {i : Nat}
    (h7 : 7 ≤ i) (h10 : i ≤ 10) :
    templateCell w map 0 i = decide (i % 2 = 0) ∧ templateCell w map i 0 = decide (i % 2 = 0) := by
  obtain ⟨hrow, hcol⟩ := timingPart_zero h7 h10
  rw [templateCell_of_not_format w hmap (by simp [isFormatCell]),
    templateCell_of_not_format w hmap (by simp [isFormatCell]), finderPart_of_lt (.inr h7), finderPart_of_lt (.inl h7)]
  exact ⟨hrow, hcol⟩

theorem templateCell_entry (w : BitVec 15) {map : Vector (Nat × Nat) 15} (hmap : FormatMapOk map) {k : Nat}
    (hk : k < 15) : templateCell w map (entry (0, 0) map k).1 (entry (0, 0) map k).2 = w.getLsbD (14 - k) := by
  obtain ⟨hf, ht⟩ := template_of_isFormatCell (hmap.2 _ (entry_mem_toList (0, 0) map hk))
  rw [templateCell, hf, ht, formatPart_entry w hmap hk]
  rfl

theorem Inv.cell_of_done {t : State} (ht : Inv t) (hd : t.phase = .done) {r c : Nat} (hr : r ≤ 10) (hc : c ≤ 10)
    (h : isData r c = false) : cell t.matrix r c = templateCell t.formatWord t.formatMap r c := by
  have hfits := ht.matrix r c hr hc
  rw [hd] at hfits
  exact hfits h

/-- MPLACE and MMASK write no reserved cell, whether they complete or fail (R175 (b)). -/
theorem cell_reserved_of_exec {i : Instr} (hi : i = .mplace ∨ i = .mmask) {s t : State} (h : exec i s = .next t)
    {r c : Nat} (hd : isData r c = false) : cell t.matrix r c = cell s.matrix r c := by
  rcases exec_next h with ⟨e, -, rfl⟩ | ⟨u, hu, rfl⟩
  · rfl
  · rw [State.succeed_matrix]
    rcases hi with rfl | rfl
    · cases hu with
      | mplace => rw [State.setPlacement_matrix, cell_placeBits_reserved _ _ r c hd]
    · cases hu with
      | mmask => rw [State.setMatrix_matrix, cell_applyMask_reserved _ hd]

theorem matrix_of_exec_mbuild {s t : State} (h : exec .mbuild s = .next t) (hok : t.lasterr = .ok) :
    t.matrix = builtMatrix s := by
  rcases exec_next h with ⟨e, he, rfl⟩ | ⟨u, hu, rfl⟩
  · exact absurd hok he.ne_ok
  · cases hu with
    | mbuild => rfl

/-- The placement sequence reads MSGLEN, the message bits and PAR only (R169). -/
theorem placementBits_congr {s s' : State} (hlen : s.msglen = s'.msglen)
    (hmsg : ∀ k, k < s.msglen → bitAt s.msg k = bitAt s'.msg k) (hpar : s.par = s'.par) :
    placementBits s = placementBits s' := by
  rw [placementBits, placementBits, ← hlen, ← hpar,
    List.map_congr_left fun k hk => hmsg k (List.mem_range.mp hk)]

/-- Settles O47: the invariant holds after the step, and at PHASE 5 its clause about M is the template. -/
theorem finishedMatrixShowsTheFixedPatterns : Obligations.FinishedMatrixShowsTheFixedPatterns := by
  refine ⟨fun s t hs hstep hd => ?patterns, fun i s t hi h r c _ _ hd => cell_reserved_of_exec hi h hd,
    fun s s' t t' hw hmap hlen hmsg hpar h h' hok hok' => ?function⟩
  case patterns =>
    have ht := everyStepKeepsTheInvariant s t hs hstep
    have hmap := ht.formatMap
    refine ⟨fun r c => ht.cell_of_done hd, ⟨?_, ?_, ?_, ?_⟩, fun i h7 h10 => ⟨?row, ?column⟩, fun k hk => ?format⟩
    case row =>
      exact (ht.cell_of_done hd (by omega) h10 (isData_eq_false_iff.mpr (by omega))).trans
        (templateCell_timing _ hmap h7 h10).1
    case column =>
      exact (ht.cell_of_done hd h10 (by omega) (isData_eq_false_iff.mpr (by omega))).trans
        (templateCell_timing _ hmap h7 h10).2
    case format =>
      have hformat := hmap.2 _ (entry_mem_toList (0, 0) t.formatMap hk)
      have hcell := isFormatCell_iff.mp hformat
      exact (ht.cell_of_done hd (by omega) (by omega) (isData_of_isFormatCell hformat)).trans
        (templateCell_entry _ hmap hk)
    all_goals
      exact (ht.cell_of_done hd (by decide) (by decide) (by decide)).trans
        (templateCell_of_not_format _ hmap (by decide))
  case function =>
    rw [matrix_of_exec_mbuild h hok, matrix_of_exec_mbuild h' hok', builtMatrix, builtMatrix, hw, hmap,
      placementBits_congr hlen hmsg hpar]

end Sys2Proof.Machine
end

section
/-! PROOFS of the family 43_control: NOP, CTLWR and STCLR (R200 to R202). None has a check, so each has one line in
`Completes` and none in `Fails`; what is left to say is which words spell them. -/

namespace Sys2Proof.Machine

/-- Settles O49: NOP has no check and no effect of its own. -/
theorem nopOnlyClearsLasterr : Obligations.NopOnlyClearsLasterr :=
  ⟨spelledN (by decide) rfl rfl, decodeAfterEncodeGivesTheCommand .nop rfl, fun _ => Completes.nop.exec_eq⟩

/-! ## CTLWR (R201) -/

/-- `w[23:1]` is the reserved field of format B8 above the operand bits that must be 0 (R73, R79). -/
theorem ctlwrHigh_eq_zero_iff {w : Word} :
    w.extractLsb' 1 23 = 0 ↔ w.extractLsb' 8 16 = 0 ∧ w.extractLsb' 1 7 = 0 := by
  have happ : w.extractLsb' 8 16 ++ w.extractLsb' 1 7 = w.extractLsb' 1 23 :=
    BitVec.extractLsb'_append_extractLsb'_eq_extractLsb' (len₁ := 7) (len₂ := 16) (show 8 = 1 + 7 from rfl)
  have hparts := eq_append_iff (w.extractLsb' 8 16) (w.extractLsb' 1 7) (w := 0)
  rw [happ] at hparts
  exact eq_comm.trans (hparts.trans (and_congr eq_comm eq_comm))

theorem decode_ctlwr {w : Word} (hop : fieldOp w = 0x30) (hz : w.extractLsb' 1 23 = 0) :
    decode w = .ok (.ctlwr (fieldB w)) := by
  obtain ⟨hres, hlow⟩ := ctlwrHigh_eq_zero_iff.mp hz
  have hw : w = encode (.ctlwr (fieldB w)) := eq_encodeB8_iff.mpr ⟨hop, hres, rfl⟩
  exact (congrArg decode hw).trans (decodeAfterEncodeGivesTheCommand _ (ctlwrOperandOk_iff.mpr hlow))

/-- A set bit of `w[23:1]` is a reserved bit of format B8 or a bit of `w[7:1]`, and R79 lists both. -/
theorem illegalWord_ctlwr {w : Word} (hop : fieldOp w = 0x30) (hz : w.extractLsb' 1 23 ≠ 0) : IllegalWord w := by
  have hnat : (fieldOp w).toNat = 0x30 := congrArg BitVec.toNat hop
  refine undefinedAndReservedWordsAreIllegal.1 w ?_
  by_cases hres : w.extractLsb' 8 16 = 0
  · exact .inr (.inr (.inr (.inr (.inr ⟨hnat, fun hlow => hz (ctlwrHigh_eq_zero_iff.mpr ⟨hres, hlow⟩)⟩))))
  · exact .inr (.inr (.inl ⟨by simp [hnat], hres⟩))

theorem statusWord_strict (s : State) : (statusWord s).getLsbD 10 = s.strict := statusWord_getLsbD s 10 (by decide)

/-- Settles O50: CTLWR has no check on its operand, and STATUS[10] is STRICT. -/
theorem ctlwrWritesStrict : Obligations.CtlwrWritesStrict :=
  ⟨fun _ hop => ⟨decode_ctlwr hop, illegalWord_ctlwr hop⟩,
    fun b _ _ => ⟨_, (Completes.ctlwr b).exec_eq, rfl, statusWord_strict _⟩⟩

/-! ## STCLR (R202) -/

/-- Settles O51: STCLR has no check; its one write is `State.clearSticky`. -/
theorem stclrClearsStickyAndTrunc : Obligations.StclrClearsStickyAndTrunc :=
  ⟨spelledN (by decide) rfl rfl, fun _ => Completes.stclr.exec_eq⟩

end Sys2Proof.Machine
end

section
/-! PROOFS of the family 45_host_encoder: the host's bit sequence (R210 to R216). A string of 1 to 7 digits encodes to
its count field, the fields of its groups and zeros (`hostBits_of_valid`), and no other string encodes; what the bits of the
result are is then read off these three parts. -/

namespace Sys2Proof.Machine

/-! ## The digits of a string (R211) -/

/-- Every character is a decimal digit (R211). -/
def AllDigits (cs : List Char) : Prop := ∀ c ∈ cs, 48 ≤ c.toNat ∧ c.toNat ≤ 57

/-- The numbers that the characters of a digit string stand for. -/
def digitsOf (cs : List Char) : List Nat := cs.map fun c => c.toNat - 48

theorem digitsOf_length (cs : List Char) : (digitsOf cs).length = cs.length := List.length_map _

theorem digitsOf_lt {cs : List Char} (h : AllDigits cs) : ∀ d ∈ digitsOf cs, d < 10 := by
  intro d hd
  obtain ⟨c, hc, rfl⟩ := List.mem_map.mp hd
  have := h c hc
  omega

theorem digitValues_of_allDigits {cs : List Char} (h : AllDigits cs) : digitValues cs = .ok (digitsOf cs) := by
  induction cs with
  | nil => rfl
  | cons c cs ih =>
    obtain ⟨hc, hcs⟩ := List.forall_mem_cons.mp h
    rw [digitValues, digitValue, if_pos hc, ih hcs]
    rfl

theorem allDigits_of_digitValues {cs : List Char} {ds : List Nat} (h : digitValues cs = .ok ds) : AllDigits cs := by
  induction cs generalizing ds with
  | nil => exact List.forall_mem_nil _
  | cons c cs ih =>
    rw [digitValues, digitValue] at h
    by_cases hc : 48 ≤ c.toNat ∧ c.toNat ≤ 57
    · cases hds : digitValues cs with
      | error e => simp [hc, hds] at h
      | ok ds => exact List.forall_mem_cons.mpr ⟨hc, ih hds⟩
    · simp [hc] at h

/-! ## Fixed-width fields (R212, R213) -/

@[simp] theorem fieldBits_length (w v : Nat) : (fieldBits w v).length = w := by simp [fieldBits]

theorem fieldBits_succ (w v : Nat) : fieldBits (w + 1) v = fieldBits w (v / 2) ++ [v.testBit 0] := by
  rw [fieldBits, List.range_succ, List.map_append]
  congr 1
  · refine List.map_congr_left fun k hk => ?_
    have hk := List.mem_range.mp hk
    rw [← Nat.testBit_succ]
    congr 1
    omega
  · simp

/-- A value that fits its field is read back from it. -/
theorem chunkValue_fieldBits {w v : Nat} (h : v < 2 ^ w) : chunkValue (fieldBits w v) = v := by
  induction w generalizing v with
  | zero =>
    obtain rfl := Nat.lt_one_iff.mp h
    rfl
  | succ w ih =>
    rw [fieldBits_succ, chunkValue_concat, ih (Nat.div_lt_of_lt_mul (by omega))]
    exact Nat.bit_testBit_zero_shiftRight_one v

/-! ## The fields of the groups (R213) -/

/-- The field of one group. -/
def groupField (g : List Nat) : List Bool := fieldBits (groupWidth g.length) (groupValue g)

/-- The fields of all groups of a digit list, in order. -/
def digitFields (ds : List Nat) : List Bool := (digitGroups ds).flatMap groupField

theorem groupFields_of_fits {gs : List (List Nat)} (h : ∀ g ∈ gs, groupValue g < 2 ^ groupWidth g.length) :
    groupFields gs = .ok (gs.flatMap groupField) := by
  induction gs with
  | nil => rfl
  | cons g gs ih =>
    obtain ⟨hg, hgs⟩ := List.forall_mem_cons.mp h
    rw [groupFields, if_pos hg, ih hgs]
    rfl

/-- The value of up to three digits fits their field: 9 < 2^4, 99 < 2^7 and 999 < 2^10 (R211). -/
theorem groupValue_lt {g : List Nat} (hpos : g ≠ []) (hlen : g.length ≤ 3) (h : ∀ d ∈ g, d < 10) :
    groupValue g < 2 ^ groupWidth g.length := by
  match g with
  | [a] | [a, b] | [a, b, c] =>
    simp [groupValue, groupWidth] at h ⊢
    omega

/-- A group has one to three digits of the string. -/
theorem of_mem_digitGroups {ds g : List Nat} (hg : g ∈ digitGroups ds) : g ≠ [] ∧ g.length ≤ 3 ∧ g ⊆ ds := by
  induction ds using digitGroups.induct with
  | case1 => cases hg
  | case2 a =>
    obtain rfl := List.mem_singleton.mp hg
    simp
  | case3 a b =>
    obtain rfl := List.mem_singleton.mp hg
    simp
  | case4 a b c rest ih =>
    rcases List.mem_cons.mp hg with rfl | hrest
    · simp
    · obtain ⟨hne, hlen, hsub⟩ := ih hrest
      exact ⟨hne, hlen, List.Subset.trans hsub (List.subset_append_right [a, b, c] rest)⟩

/-- No group overflows its field (R211). -/
theorem groupFields_digitGroups {ds : List Nat} (h : ∀ d ∈ ds, d < 10) :
    groupFields (digitGroups ds) = .ok (digitFields ds) := by
  refine groupFields_of_fits fun g hg => ?_
  obtain ⟨hne, hlen, hsub⟩ := of_mem_digitGroups hg
  exact groupValue_lt hne hlen fun d hd => h d (hsub hd)

/-! ## Where the fields stand -/

theorem digitGroups_eq_cons {ds : List Nat} (h : ds ≠ []) :
    digitGroups ds = ds.take 3 :: digitGroups (ds.drop 3) := by
  match ds with
  | [_] | [_, _] | _ :: _ :: _ :: _ => rfl

theorem groupWidth_take (ds : List Nat) : groupWidth (ds.take 3).length = groupWidth ds.length := by
  match ds with
  | [] | [_] | [_, _] | _ :: _ :: _ :: _ => simp [groupWidth]

/-- The first group's field comes first, then those of the digits after it. -/
theorem digitFields_eq_append {ds : List Nat} (h : ds ≠ []) :
    digitFields ds = groupField (ds.take 3) ++ digitFields (ds.drop 3) := by
  rw [digitFields, digitGroups_eq_cons h, List.flatMap_cons]
  rfl

theorem groupField_take_length (ds : List Nat) : (groupField (ds.take 3)).length = groupWidth ds.length := by
  rw [groupField, fieldBits_length, groupWidth_take]

/-- A group starts 10 bits after the one before it, because only the last may be shorter. -/
theorem drop_digitFields_append {ds : List Nat} {g : Nat} (h : 3 * g < ds.length) (rest : List Bool) :
    (digitFields ds ++ rest).drop (10 * g) = digitFields (ds.drop (3 * g)) ++ rest := by
  induction g generalizing ds with
  | zero => rfl
  | succ g ih =>
    have hwidth : (groupField (ds.take 3)).length = 10 := by
      rw [groupField_take_length, groupWidth, if_neg (by omega), if_neg (by omega)]
    have htail : 3 * g < (ds.drop 3).length := by rw [List.length_drop]; omega
    calc (digitFields ds ++ rest).drop (10 * (g + 1))
      _ = ((groupField (ds.take 3) ++ (digitFields (ds.drop 3) ++ rest)).drop 10).drop (10 * g) := by
        rw [digitFields_eq_append (List.ne_nil_of_length_pos (by omega)), List.append_assoc, List.drop_drop,
          Nat.mul_succ, Nat.add_comm]
      _ = (digitFields (ds.drop 3) ++ rest).drop (10 * g) := by rw [List.drop_left' hwidth]
      _ = digitFields (ds.drop (3 * (g + 1))) ++ rest := by
        rw [ih htail, List.drop_drop, Nat.mul_succ, Nat.add_comm 3]

/-- The group that starts at digit `3 g` has its field at bit `10 g` of the groups' fields. -/
theorem take_drop_digitFields_append {ds : List Nat} {g : Nat} (h : 3 * g < ds.length) (rest : List Bool) :
    ((digitFields ds ++ rest).drop (10 * g)).take (groupWidth (ds.length - 3 * g)) =
      groupField ((ds.drop (3 * g)).take 3) := by
  have hne : ds.drop (3 * g) ≠ [] := List.ne_nil_of_length_pos (by rw [List.length_drop]; omega)
  rw [drop_digitFields_append h, digitFields_eq_append hne, List.append_assoc]
  exact List.take_left' (by rw [groupField_take_length, List.length_drop])

theorem digitFields_length (ds : List Nat) : (digitFields ds).length = groupBits ds.length := by
  rw [← digitGroups_width, digitFields, List.length_flatMap]
  simp only [groupField, fieldBits_length]

/-! ## What the fields read as -/

/-- A group of a digit string reads back as the decimal number that its characters spell. -/
theorem chunkValue_groupField {cs : List Char} (hne : cs ≠ []) (hlen : cs.length ≤ 3) (hcs : AllDigits cs) :
    chunkValue (groupField (digitsOf cs)) = decimalValue cs := by
  have hfits : groupValue (digitsOf cs) < 2 ^ groupWidth (digitsOf cs).length :=
    groupValue_lt (List.map_eq_nil_iff.not.mpr hne) ((digitsOf_length cs).trans_le hlen) (digitsOf_lt hcs)
  rw [groupField, chunkValue_fieldBits hfits]
  exact List.foldl_map

/-- The field of the group that starts at digit `3 g`, read as binary. -/
theorem chunkValue_group {cs : List Char} (hcs : AllDigits cs) {g : Nat} (hg : 3 * g < cs.length) (rest : List Bool) :
    chunkValue (((digitFields (digitsOf cs) ++ rest).drop (10 * g)).take (groupWidth (cs.length - 3 * g))) =
      decimalValue ((cs.drop (3 * g)).take 3) := by
  have hgroup : ((digitsOf cs).drop (3 * g)).take 3 = digitsOf ((cs.drop (3 * g)).take 3) := by
    simp only [digitsOf, List.map_take, List.map_drop]
  have hne : (cs.drop (3 * g)).take 3 ≠ [] :=
    List.ne_nil_of_length_pos (by rw [List.length_take, List.length_drop]; omega)
  rw [← digitsOf_length cs] at hg ⊢
  rw [take_drop_digitFields_append hg, hgroup]
  exact chunkValue_groupField hne (List.length_take_le ..) fun c hc =>
    hcs c (List.mem_of_mem_drop (List.mem_of_mem_take hc))

/-! ## The whole bit sequence (R210) -/

/-- `bits(s)` of a string that has one: count field, digit fields, terminator, padding. -/
def hostString (cs : List Char) : List Bool :=
  padBits (fieldBits 3 cs.length ++ digitFields (digitsOf cs) ++ fieldBits 3 0)

theorem hostBits_of_valid {cs : List Char} (hpos : 1 ≤ cs.length) (hle : cs.length ≤ 7) (hcs : AllDigits cs) :
    hostBits cs = .ok (hostString cs) := by
  rw [hostBits, if_neg (List.ne_nil_of_length_pos hpos), digitValues_of_allDigits hcs, hostString]
  simp only [digitsOf_length, if_neg (Nat.not_lt.mpr hle), groupFields_digitGroups (digitsOf_lt hcs)]

theorem allDigits_of_hostBits {cs : List Char} {bs : List Bool} (h : hostBits cs = .ok bs) : AllDigits cs := by
  cases hds : digitValues cs with
  | error e =>
    rw [hostBits, hds] at h
    split at h <;> cases h
  | ok ds => exact allDigits_of_digitValues hds

/-- The terminator is the first of the zeros that end the string (R214, R215). -/
theorem hostString_eq (cs : List Char) : ∃ z, hostString cs =
    fieldBits 3 cs.length ++ (digitFields (digitsOf cs) ++ List.replicate z false) := by
  rw [hostString, padBits, show fieldBits 3 0 = List.replicate 3 false from rfl]
  simp only [List.append_assoc, List.replicate_append_replicate]
  exact ⟨_, rfl⟩

/-- An encoded string is made of 1 to 7 digits, and consists of the count field, the digit fields and zeros. -/
theorem hostBits_parts {cs : List Char} {bs : List Bool} (h : hostBits cs = .ok bs) :
    AllDigits cs ∧ ∃ z, bs = fieldBits 3 cs.length ++ (digitFields (digitsOf cs) ++ List.replicate z false) := by
  obtain ⟨hpos, hle, -⟩ := hostBits_length h
  have hcs := allDigits_of_hostBits h
  have hbs : hostString cs = bs := Except.ok.inj ((hostBits_of_valid hpos hle hcs).symm.trans h)
  exact ⟨hcs, hbs ▸ hostString_eq cs⟩

theorem hostBits_take_three {cs : List Char} {bs : List Bool} (h : hostBits cs = .ok bs) :
    bs.take 3 = fieldBits 3 cs.length := by
  obtain ⟨-, z, rfl⟩ := hostBits_parts h
  exact List.take_left' (fieldBits_length ..)

/-- The lengths of R216 for each digit count. -/
theorem paddedLength_of_count {n : Nat} (hpos : 1 ≤ n) (hle : n ≤ 7) : paddedLength (3 + groupBits n + 3) =
    if n ≤ 4 then 20 else if n = 5 then 24 else if n = 6 then 28 else 32 := by
  interval_cases n <;> rfl

/-- Settles O57: a string of 1 to 7 digits encodes and no other does; the length goes by the count alone. -/
theorem hostBitLengths : Obligations.HostBitLengths := by
  refine ⟨fun cs => ⟨fun ⟨bs, h⟩ => ?_, fun ⟨hpos, hle, hcs⟩ => ⟨_, hostBits_of_valid hpos hle hcs⟩⟩,
    fun cs bs h => ⟨?_, hostBits_take_three h⟩⟩
  · obtain ⟨hpos, hle, -⟩ := hostBits_length h
    exact ⟨hpos, hle, allDigits_of_hostBits h⟩
  · obtain ⟨hpos, hle, hlen⟩ := hostBits_length h
    exact hlen.trans (paddedLength_of_count hpos hle)

/-- Settles O60: each clause is read off one part of the string. -/
theorem hostBitsSpellTheDigits : Obligations.HostBitsSpellTheDigits := by
  intro cs bs h
  obtain ⟨-, hle, hlen⟩ := hostBits_length h
  obtain ⟨hcs, z, hbs⟩ := hostBits_parts h
  refine ⟨hlen, ?count, fun g hg => ?group, fun k hk hk' => ?zero⟩
  case count => rw [hostBits_take_three h, chunkValue_fieldBits (Nat.lt_succ_of_le hle)]
  case group =>
    rw [hbs, ← List.drop_drop, List.drop_left' (fieldBits_length ..)]
    exact chunkValue_group hcs hg _
  case zero =>
    rw [hbs, List.getD_append_right _ _ _ _ (by rw [fieldBits_length]; omega),
      List.getD_append_right _ _ _ _ (by rw [digitFields_length, digitsOf_length, fieldBits_length]; omega)]
    simp

end Sys2Proof.Machine
end

section
/-! PROOFS of the family 60_exceptions: what a failing command writes (R231), and the causes of each error code (R230).
The causes are read off `Fails`: an error code in LASTERR names a row of that list, and the row holds the cause. -/

namespace Sys2Proof.Machine

/-- Settles O7: a command fails or completes, and only a failure leaves another code than E_OK. -/
theorem failingCommandWritesOnlyLasterrAndSticky : Obligations.FailingCommandWritesOnlyLasterrAndSticky := by
  refine ⟨fun i s => ?command, fun w s => ?word⟩
  case command =>
    rcases fails_or_completes i s with ⟨e, he⟩ | ⟨u, hu⟩
    · exact ⟨s.fail e, exec_of_fails he, fun _ => rfl⟩
    · exact ⟨u.succeed, exec_of_completes hu, fun hne => absurd rfl hne⟩
  case word =>
    obtain ⟨t, ht⟩ := issue_next w s
    exact ⟨t, ht, issue_failed ht⟩

/-! ## The causes of each code (R230) -/

/-- Codes 11 to 15 are reserved: no code of the block stands there. -/
theorem ErrCode.bits_toNat_le (e : ErrCode) : e.bits.toNat ≤ 10 := by
  cases e <;> decide

section
variable {s t : State} {i : Instr}

/-- An error code in LASTERR after a command is the code of that command's failure. -/
theorem fails_of_lasterr {e : ErrCode} (h : exec i s = .next t) (he : e ≠ .ok) (ht : t.lasterr = e) : Fails s i e := by
  rcases exec_next h with ⟨e', he', rfl⟩ | ⟨u, -, rfl⟩
  · exact ht ▸ he'
  · exact absurd ht.symm he

/-- E_ILLEGAL is decode's code: no command raises it. -/
theorem Fails.ne_illegal {e : ErrCode} (h : Fails s i e) : e ≠ .illegal := by
  cases h <;> decide

theorem lasterr_illegal_iff {w : Word} (h : issue w s = .next t) :
    t.lasterr = .illegal ↔ ∃ d, decode w = .error d := by
  rcases issue_next_cases h with ⟨d, hd, rfl⟩ | ⟨i, e, hd, he, rfl⟩ | ⟨i, u, hd, -, rfl⟩
  · simp [hd]
  · simp [hd, he.ne_illegal]
  · simp [hd]

theorem Fails.range_cause (h : Fails s i .range) :
    (∃ n v, i = .msgput n v ∧ (n.toNat = 0 ∨ n.toNat > 16 ∨ v >>> n.toNat ≠ 0)) ∨
    (∃ b, i = .cwrd b ∧ b.toNat ≥ (s.msglen + 7) / 8) ∨
    (∃ a b, i = .classify a b ∧ (a.toNat > 10 ∨ b.toNat > 10)) ∨
    ∃ b, i = .mrdrow b ∧ b.toNat > 10 := by
  cases h with
  | msgput_range n v h => exact .inl ⟨n, v, rfl, or_assoc.mp h⟩
  | cwrd_range b h => exact .inr (.inl ⟨b, rfl, h⟩)
  | classify_range a b h => exact .inr (.inr (.inl ⟨a, b, rfl, h⟩))
  | mrdrow_range b h => exact .inr (.inr (.inr ⟨b, rfl, h⟩))

theorem Fails.notable_cause (h : Fails s i .notable) :
    s.tblValid = false ∧ ((∃ a b, i = .gfmul a b) ∨ (∃ b, i = .exprd b) ∨ (∃ b, i = .logrd b) ∨ i = .rsgen) := by
  cases h with
  | gfmul_notable a b ht => exact ⟨ht, .inl ⟨a, b, rfl⟩⟩
  | exprd_notable b ht => exact ⟨ht, .inr (.inl ⟨b, rfl⟩)⟩
  | logrd_notable b _ ht => exact ⟨ht, .inr (.inr (.inl ⟨b, rfl⟩))⟩
  | rsgen_notable ht => exact ⟨ht, .inr (.inr (.inr rfl))⟩

theorem Fails.nopar_cause (h : Fails s i .nopar) :
    s.parValid = false ∧ (i = .parrd ∨ i = .mplace ∨ i = .mbuild) := by
  cases h with
  | parrd_nopar hp => exact ⟨hp, .inl rfl⟩
  | mplace_nopar _ hp => exact ⟨hp, .inr (.inl rfl)⟩
  | mbuild_nopar hp => exact ⟨hp, .inr (.inr rfl)⟩

theorem Fails.seq_cause (h : Fails s i .seq) :
    (i = .mfind ∧ s.phase ≠ .cleared) ∨ (i = .mtime ∧ s.phase ≠ .finder) ∨ (i = .mfmt ∧ s.phase ≠ .timing) ∨
    (i = .mplace ∧ s.phase ≠ .format) ∨ (i = .mmask ∧ s.phase ≠ .placed) := by
  cases h with
  | mfind_seq h => exact .inl ⟨rfl, h⟩
  | mtime_seq h => exact .inr (.inl ⟨rfl, h⟩)
  | mfmt_seq h => exact .inr (.inr (.inl ⟨rfl, h⟩))
  | mplace_seq h => exact .inr (.inr (.inr (.inl ⟨rfl, h⟩)))
  | mmask_seq h => exact .inr (.inr (.inr (.inr ⟨rfl, h⟩)))

theorem Fails.capacity_cause (h : Fails s i .capacity) :
    s.strict = true ∧ s.msglen + 16 > 36 ∧ (i = .mplace ∨ i = .mbuild) := by
  cases h with
  | mplace_capacity _ _ hc => exact hc.imp_right fun hlen => ⟨hlen, .inl rfl⟩
  | mbuild_capacity _ hc => exact hc.imp_right fun hlen => ⟨hlen, .inr rfl⟩

end

/-- Settles O8: a code in LASTERR after a command names rows of `Fails`, and each row carries its cause. -/
theorem eachErrorCodeHasItsCause : Obligations.EachErrorCodeHasItsCause := by
  refine ⟨by decide, ErrCode.bits_toNat_le, fun w s t h => lasterr_illegal_iff h, fun i s t h => ?_⟩
  have hf : ∀ e, e ≠ .ok → t.lasterr = e → Fails s i e := fun _ => fails_of_lasterr h
  refine ⟨fun ht => (hf _ (by decide) ht).range_cause, fun ht => ?logzero,
    fun ht => (hf _ (by decide) ht).notable_cause, fun ht => ?nomsg, fun ht => ?msgovf,
    fun ht => (hf _ (by decide) ht).nopar_cause, fun ht => (hf _ (by decide) ht).seq_cause, fun ht => ?notready,
    fun ht => (hf _ (by decide) ht).capacity_cause, fun ht => (hf _ (by decide) ht).ne_illegal rfl⟩
  case logzero => cases hf _ (by decide) ht; rfl
  case nomsg => cases hf _ (by decide) ht with | rsgen_nomsg _ hl => exact ⟨rfl, hl⟩
  case msgovf => cases hf _ (by decide) ht with | msgput_msgovf n v _ _ hlen => exact ⟨n, v, rfl, hlen⟩
  case notready => cases hf _ (by decide) ht with | mrdrow_notready b _ hp => exact ⟨hp, b, rfl⟩

end Sys2Proof.Machine
end

section
/-! PROOFS of the family 70_reset_and_hazards: the block right after reset (R260), and the reset event (R261), which puts
the same values into a block in any state. -/

namespace Sys2Proof.Machine

/-- Settles O17: the flags that reset leaves 0 empty the clauses about the tables, the parity and M (as in
`Inv.resetBlock`); the default FORMAT_MAP is 15 different format cells (R166), by evaluation. -/
theorem invariantHoldsAfterReset : Obligations.InvariantHoldsAfterReset where
  tables := nofun
  msglen := Nat.zero_le 32
  parity := nofun
  matrix _ _ _ _ := trivial
  sticky hne := absurd State.reset_lasterr hne
  formatMap := ⟨by decide, by decide⟩
  pos := Nat.le_refl 0

/-! ## The reset event (R260, R261) -/

theorem step_reset {s : State} (h : s.prog[s.pos]? = some .reset) : step s = .next s.advance.resetBlock :=
  step_op h

/-- STATUS shows only elements that have a reset value, so it reads the same after any reset event. -/
theorem statusWord_resetBlock (s : State) : statusWord s.resetBlock = statusWord State.reset := by
  simp [statusWord]

/-- Settles O56: the reset event is `State.resetBlock`, each of whose elements is that of `State.reset`. -/
theorem resetEventSetsTheResetValues : Obligations.ResetEventSetsTheResetValues := by
  have hstatus : statusWord State.reset = 0x00007000 := statusWordLayout.1
  refine ⟨⟨hstatus, State.reset_result, State.reset_prog, State.reset_formatWord, State.reset_formatMap⟩,
    fun s h => ⟨_, step_reset h, ?_⟩⟩
  simp [statusWord_resetBlock, hstatus]

end Sys2Proof.Machine
end
